-- ==== Sys2Proof/Word.lean ====
section
/-! DEFINITION. The word types of the block: one abbreviation for each width of spec/00_scope.md rule R5.
Everything that carries behaviour stands in Decode.lean and Machine/. -/

namespace Sys2Proof

/-- The `angle` register: `ANGLE_W` = 19 bits, in milli-degrees (R5, R11). -/
abbrev Angle := BitVec 19

/-- The adder result inside `ADVANCE`: `SUM_W` = 20 bits (R5, R100). -/
abbrev Sum20 := BitVec 20

/-- A normalised degree, `DEG9_W` = 9 bits (R5, R80). -/
abbrev Degree := BitVec 9

/-- What `CURDEG` answers. Nine bits suffice on reachable angles; a total implementation needs ten
(R102), and the model is total. DESIGN CHOICE, log entry 9. -/
abbrev WideDegree := BitVec 10

/-- The resolver's signed degree input port: `DEG_W` = 32 bits (R5, R80). -/
abbrev DegPort := BitVec 32

/-- A ROM word address: `ADDR_W` = 7 bits (R5, R31). -/
abbrev RomAddr := BitVec 7

/-- An amplitude: `AMP_W` = 13 bits (R5). -/
abbrev Amp := BitVec 13

/-- The sequencer register: `PHASE_W` = 3 bits (R5, R13). -/
abbrev Phase := BitVec 3

/-- One event word, bit 1 `rst` and bit 0 `tick` (R51). -/
abbrev EvWord := BitVec 2

/-- The quadrant code of a normalised degree (R53). -/
abbrev QuadCode := BitVec 2

/-- What a 12-bit output device keeps of a write (R5 `DacNarrow`, R18). -/
abbrev Dac12 := BitVec 12

end Sys2Proof
end

