-- ==== Sys2Proof/Config.lean ====
section
/-! DEFINITION. The parameters of the block (spec/00_scope.md rules R5 and R6). None of them is state (R20).
Every meaning of the model is written over an arbitrary `Config`; the values the fixed names run with
(`Config.device`) stand in Machine/Params.lean. -/

namespace Sys2Proof

/-- The open parameters of R5, with the constraints of R6 carried by their types, so that a
configuration the spec refuses cannot be built:
`STEP < 360000` (R6 a), every table word at most 0x1000 (R6 b), `DacNarrow` the identity on
0..4095 and unconstrained above (R6 c). -/
structure Config where
  /-- `STEP`, milli-degrees added per tick; 0 is legal (R5, R6, R106). -/
  step : Fin 360000
  /-- `TABLE`, the 91 ROM words (R5, R31). -/
  table : Fin 91 → Fin 4097
  /-- `INIT_TICK_FLAG`, the value of `tick_flag` after RESET (R5, R16). -/
  initTickFlag : Bool
  /-- `DacNarrow`, what the 12-bit device makes of a 13-bit write (R5, R18). -/
  dacNarrow : Amp → Dac12
  /-- `DacNarrow(v) = v` for `v <= 4095` (R6 c). -/
  dacNarrow_id : ∀ v : Amp, v.toNat ≤ 4095 → (dacNarrow v).toNat = v.toNat

/-- FREE VALUE (log entry 8): what the device keeps of a write above 4095. The spec leaves
`DacNarrow` open there (R5, R6 c, conflict C3), so nothing about it can be proved. -/
opaque Config.dacNarrowAbove : Amp → Dac12

/-- FREE VALUE (log entry 2): the event the environment and the driver's turn present when no
schedule is given. Where TICK and RESET fall among the driver's steps is not fixed (R110, R118). -/
opaque Config.envEvent : Nat → EvWord

/-- Parameters as they may be written down, before R6 is checked. -/
structure RawConfig where
  step : Nat
  table : List Nat
  initTickFlag : Bool
  deriving DecidableEq, Repr

/-- Why a configuration is refused (R152: "the configuration is refused"). -/
inductive ConfigError where
  /-- `STEP >= 360000` (R6 a, R101, U9). Safe: nothing is said of such a block. -/
  | stepTooLarge
  /-- The table has not exactly 91 words (R5 `TABLE_DEPTH`). Safe. -/
  | tableDepth
  /-- A table word above 0x1000 (R6 b, U20). Safe. -/
  | tableWordTooLarge
  deriving DecidableEq, Repr

end Sys2Proof
end

