-- ==== Sys2Proof/Machine/Params.lean ====
section
/-! DEFINITION. The documented default parameters (spec/00_scope.md rule R5, spec/40_wavetable_rom.md rules
R71 and R72), the configuration the fixed names run with, and the check of a configuration that is written
down (R6, R152). DESIGN CHOICE, log entry 7: the spec leaves these parameters open and names the defaults. -/

namespace Sys2Proof

/-- The default ROM words, row by row as R72 prints them. -/
def defaultWords : List Nat :=
  [0, 71, 143, 214, 286, 357, 428, 499, 570, 641] ++
  [711, 782, 852, 921, 991, 1060, 1129, 1198, 1266, 1334] ++
  [1401, 1468, 1534, 1600, 1666, 1731, 1796, 1860, 1923, 1986] ++
  [2048, 2110, 2171, 2231, 2290, 2349, 2408, 2465, 2522, 2578] ++
  [2633, 2687, 2741, 2793, 2845, 2896, 2946, 2996, 3044, 3091] ++
  [3138, 3183, 3228, 3271, 3314, 3355, 3396, 3435, 3474, 3511] ++
  [3547, 3582, 3617, 3650, 3681, 3712, 3742, 3770, 3798, 3824] ++
  [3849, 3873, 3896, 3917, 3937, 3956, 3974, 3991, 4006, 4021] ++
  [4034, 4046, 4056, 4065, 4074, 4080, 4086, 4090, 4094, 4095] ++
  [4096]

/-- A list of words as the function {0..90} -> {0..0x1000} of R5, clamped to 0x1000 as R71 says
(the clamp never acts on the default words, nor on words that `Config.ofRaw` accepts). -/
def tableOfWords (ws : List Nat) (i : Fin 91) : Fin 4097 :=
  ⟨min 4096 (ws.getD i.val 0), by omega⟩

/-- `TABLE` by default (R72). -/
def defaultTable : Fin 91 → Fin 4097 := tableOfWords defaultWords

/-- `STEP` by default: 360000 div 44100 = 8 (R104). -/
def defaultStep : Fin 360000 := ⟨360000 / 44100, by decide⟩

/-- `DacNarrow` as far as the spec gives it: the identity up to 4095, free above (R5, R6 c). -/
def dacNarrowOpen (v : Amp) : Dac12 :=
  if v.toNat ≤ 4095 then v.setWidth 12 else Config.dacNarrowAbove v

theorem dacNarrowOpen_id (v : Amp) (h : v.toNat ≤ 4095) : (dacNarrowOpen v).toNat = v.toNat := by
  simp only [dacNarrowOpen, h, if_true, BitVec.toNat_setWidth]
  omega

/-- The configuration the fixed names `exec`, `step` and `State.reset` run with: every open parameter
at the default the spec names (R5). -/
def Config.device : Config where
  step := defaultStep
  table := defaultTable
  initTickFlag := false
  dacNarrow := dacNarrowOpen
  dacNarrow_id := dacNarrowOpen_id

/-- Build a configuration from written parameters, refusing what R6 excludes (R101, R152). -/
def Config.ofRaw (r : RawConfig) : Except ConfigError Config :=
  if h : r.step < 360000 then
    if r.table.length ≠ 91 then .error .tableDepth
    else if r.table.all (fun w => decide (w ≤ 4096)) then
      .ok
        { step := ⟨r.step, h⟩
          table := tableOfWords r.table
          initTickFlag := r.initTickFlag
          dacNarrow := dacNarrowOpen
          dacNarrow_id := dacNarrowOpen_id }
    else .error .tableWordTooLarge
  else .error .stepTooLarge

end Sys2Proof
end

