-- ==== Sys2Proof/Machine/State.lean ====
section
/-! DEFINITION. The state (spec/10_state.md rule R10), the reasons a step can stop, and the state after reset
(R23, spec/70_reset_and_hazards.md rule R160). Parameters and transient values are not state (R20). -/

namespace Sys2Proof.Machine

/-- An entry of the ghost event history (R19). -/
inductive Entry where
  /-- The timing source ticked (R117). -/
  | tick
  /-- The value `dor` took, possibly `none` (R19, R117). -/
  | latch (v : Option Amp)
  /-- The tick was acknowledged (R112). -/
  | ack
  /-- The sample register was written (R32, R115); `none` only from the unreachable WR of log entry 10. -/
  | wr (v : Option Amp)
  deriving DecidableEq, Repr

/-- Which output is looked at after a sub-block was driven on its own (R91, R107); log entry 6. No degree, normalised
degree, quadrant code, ROM address or copy of `angle` is held: they live in no register (R20 d, R22), and what the
ports show is recomputed from the state (`shownWith`). -/
inductive Readout where
  /-- `rom_data` or `amp_out`. -/
  | amp (v : Amp)
  /-- The normaliser, with the value the test bench holds on its input port `deg_in`. -/
  | normaliser (degIn : DegPort)
  /-- The accumulator's adder. -/
  | adder
  /-- The accumulator's port `deg`. -/
  | deg
  deriving DecidableEq, Repr

/-- The whole state. The first seven fields are the spec's (R10); the last three are the MODEL's own. -/
structure State where
  /-- The accumulator register, milli-degrees (R11). -/
  angle : Angle
  /-- The sequencer register, the block's program counter (R13). -/
  phase : Phase
  /-- The amplitude between LKP and WR, or `none` (R15, R24). -/
  amp : Option Amp
  /-- The pending tick (R16). -/
  tickFlag : Bool
  /-- The output device's sample register, or `none` (R17, R24). -/
  dhr : Option Amp
  /-- The value the output device last latched, or `none` (R18, R24). -/
  dor : Option Amp
  /-- The ghost event history, oldest first; no rule reads it (R19). -/
  history : List Entry
  /-- MODEL: the event words still to be presented from outside, first event first (R58; log entry 1). -/
  schedule : List EvWord
  /-- MODEL: the index of the next free event, used when `schedule` is empty (log entry 2). -/
  envIndex : Nat
  /-- MODEL: the output of the sub-block last driven on its own; no operation reads it (log entry 6). -/
  readout : Option Readout
  deriving DecidableEq, Repr

/-- The block raises no exception and nothing in it can fail (R140): there is no fault. -/
inductive Fault where
  deriving DecidableEq, Repr

/-- Why the model gives an operation no meaning on some operand. -/
inductive Refusal where
  /-- Raised by an arm of `exec` whose instruction has no meaning yet; no arm does. Safe. -/
  | notModelled (mnemonic : String)
  /-- Raised by SAMPLE on a ROM address 91..127: `refuse(rom_range)` (R31, R70, R152).
  No LOOKUP reaches it (R88). Safe: nothing is said of such a read. -/
  | romRange
  /-- Raised by Q0 to Q3 on a degree outside their own quadrant, where the operation cannot be
  selected (R53, R81; log entry 11). Safe: nothing is said of such an evaluation. -/
  | quadrantRange
  deriving DecidableEq, Repr

/-- The state after RESET under a configuration (R23, R160), with no event scheduled. -/
def State.resetWith (c : Config) : State where
  angle := 0#19
  phase := 0#3
  amp := none
  tickFlag := c.initTickFlag
  dhr := none
  dor := none
  history := []
  schedule := []
  envIndex := 0
  readout := none

/-- The state after RESET with the documented default parameters. -/
def State.reset : State := State.resetWith Config.device

/-- The outcome of a step of this machine. -/
abbrev Outcome := Host.Outcome State Fault Refusal

end Sys2Proof.Machine
end

