-- ==== Sys2Proof/Machine/Operands.lean ====
section
/-! DEFINITION. Operand and constant assembly (spec/30_encoding.md rule R55): every operand is a named state
element, a parameter, or the result of the operation before it, at the widths of R5. -/

namespace Sys2Proof.Machine

/-- `STEP` zero-extended to the adder's 20 bits (R55, R100). -/
def stepOperand (c : Config) : Sum20 := BitVec.ofNat 20 c.step.val

/-- `angle` zero-extended to the adder's 20 bits (R100). -/
def angleOperand (a : Angle) : Sum20 := a.setWidth 20

/-- `zext_32` of a degree onto the resolver's port (R91, R114). -/
def degOperand (d : WideDegree) : DegPort := d.setWidth 32

/-- `sext_32`: the integer a degree port carries (R7, R80). -/
def portInteger (p : DegPort) : Int := p.toInt

/-- The ROM address of Q0: the degree itself (R82). -/
def indexQ0 (d : Degree) : RomAddr := d.setWidth 7

/-- The ROM address of Q1: `180 - d` (R83). -/
def indexQ1 (d : Degree) : RomAddr := (180#9 - d).setWidth 7

/-- The ROM address of Q2: `d - 180` (R84). -/
def indexQ2 (d : Degree) : RomAddr := (d - 180#9).setWidth 7

/-- The ROM address of Q3: `360 - d` (R85). -/
def indexQ3 (d : Degree) : RomAddr := (360#9 - d).setWidth 7

/-- `0x1000 - v`, over the naturals because a table word is at most 0x1000 (R83, R84, R6 b). -/
def mirror (v : Amp) : Amp := 0x1000#13 - v

end Sys2Proof.Machine
end

