-- ==== Sys2Proof/Machine/Flags.lean ====
section
/-! DEFINITION. The one stored flag, `tick_flag` (spec/10_state.md rule R16), and the tests that are computed and
used in one operation and never stored (R21). -/

namespace Sys2Proof.Machine

/-- The wrap test of ADVANCE: `sum >= 360000`, on equality too (R100). -/
def wraps (sum : Sum20) : Bool := decide (360000 ≤ sum.toNat)

/-- TICK sets the flag; it is sticky and does not count (R16, R117). -/
def setTickFlag (s : State) : State := { s with tickFlag := true }

/-- ACK clears the flag (R16, R112). -/
def clearTickFlag (s : State) : State := { s with tickFlag := false }

/-- The guard of ENTER (R111). -/
def tickPending (s : State) : Bool := s.tickFlag

end Sys2Proof.Machine
end

