-- ==== Sys2Proof/Machine/Ops.lean ====
section
/-! DEFINITION. The named operations over the registers and the two address spaces (spec/00_scope.md rule R8,
spec/20_memory.md), and the entry into and return from the tick handler (spec/60_exceptions.md R143, R144). -/

namespace Sys2Proof.Machine

/-- `phase <- n`, the block's `pc <- target` (R8, R13). -/
def setPhase (p : Phase) (s : State) : State := { s with phase := p }

/-- `angle <- a` (R11). -/
def writeAngle (a : Angle) (s : State) : State := { s with angle := a }

/-- `amp <- v` (R15). -/
def writeAmp (v : Amp) (s : State) : State := { s with amp := some v }

/-- `emit E` (R8, R19). -/
def emit (e : Entry) (s : State) : State := { s with history := s.history ++ [e] }

/-- `MemRead(a, 1)` in range: the ROM word `TABLE(a)` (R8, R31). -/
def romWord (c : Config) (i : Fin 91) : Amp := BitVec.ofNat 13 (c.table i).val

/-- `MemRead(a, 1)` on the 7-bit address port: addresses 91..127 hold nothing (R31). -/
def memRead (c : Config) (a : RomAddr) : Except Refusal Amp :=
  if h : a.toNat < 91 then .ok (romWord c ⟨a.toNat, h⟩) else .error .romRange

/-- `MemWrite(0, 1, v)`: `dhr <- v ; emit WR(v)` (R8, R32). The value is `amp` as it stands, so the
unreachable `none` is copied and never turned into a number (R24; log entry 10). -/
def memWriteOut (v : Option Amp) (s : State) : State := emit (.wr v) { s with dhr := v }

/-- The trigger's half of TICK: `dor <- dhr`, from the `dhr` of the state before (R42, R117). -/
def latchOutput (s : State) : State := { s with dor := s.dhr }

/-- Taking the tick interrupt (R141, R143): nothing is saved, only `phase` changes. -/
def takeTick (s : State) : State := setPhase 1#3 s

/-- The return from the handler (R144): nothing is restored. -/
def returnFromTick (s : State) : State := setPhase 0#3 s

/-- The values of RESET (R160). What stands outside the machine and the model's own fields stay
(log entry 12). -/
def resetElements (c : Config) (s : State) : State :=
  { s with
    angle := 0#19
    phase := 0#3
    amp := none
    tickFlag := c.initTickFlag
    dhr := none
    dor := none
    history := [] }

/-- Look at the output of a sub-block driven on its own, or refuse as the sub-block does (log entry 6). -/
def showResult (r : Except Refusal Readout) (s : State) : Outcome :=
  match r with
  | .ok v => .next { s with readout := some v }
  | .error e => .refused e

end Sys2Proof.Machine
end

