-- ==== Sys2Proof/Machine/Accumulator.lean ====
section
/-! DEFINITION. The family of phase_accumulator (spec/42_phase_accumulator.md): ADVANCE and CURDEG. -/

namespace Sys2Proof.Machine

/-- The 20-bit sum inside ADVANCE; no wrap-around occurs (R100). -/
def advanceSum (c : Config) (a : Angle) : Sum20 := angleOperand a + stepOperand c

/-- ADVANCE(angle, STEP): one compare, at most one subtraction, narrowed to 19 bits (R100). Total on all
19-bit angles; one subtraction does not repair an angle that was already out of range (R12, R100). -/
def advance (c : Config) (a : Angle) : Angle :=
  if wraps (advanceSum c a) then (advanceSum c a - 360000#20).setWidth 19
  else (advanceSum c a).setWidth 19

/-- CURDEG(angle) = `angle div 1000`, kept whole on every 19-bit angle (R102; log entry 9). -/
def curdeg (a : Angle) : WideDegree := BitVec.ofNat 10 (a.toNat / 1000)

/-- ADVANCE on its own, under any configuration: the adder's output, `advance` of the register, is looked at, and `angle` is
not written (R100: the ADV micro-operation writes it). The value is `shownWith` of the answered state. -/
def execAdvanceWith (_c : Config) (s : State) : Outcome :=
  showResult (.ok .adder) s

/-- CURDEG on its own: the combinational port `deg` is looked at (R107); "CURDEG does not change `angle`" (R102). The
degree is `shownWith` of the answered state and is not stored (R20 d). -/
def execCurdegWith (_c : Config) (s : State) : Outcome :=
  showResult (.ok .deg) s

/-- ADVANCE (R100). -/
def execAdvance (s : State) : Outcome := execAdvanceWith Config.device s

/-- CURDEG (R102). -/
def execCurdeg (s : State) : Outcome := execCurdegWith Config.device s

end Sys2Proof.Machine
end

