-- ==== Sys2Proof/Syntax.lean ====
section
/-! DEFINITION. The eighteen operations of the block, one constructor for each row of
spec/opcode_table.json (spec/30_encoding.md rule R59), and the four formats of R50. -/

namespace Sys2Proof

/-- What selects an operation (R50). -/
inductive Format where
  /-- The event word `ev[1:0]`. -/
  | ev
  /-- The sequencer register `phase[2:0]`. -/
  | uop
  /-- The quadrant code `q[1:0]` computed inside `LOOKUP`. -/
  | qd
  /-- Nothing: always selected when its caller runs (R54). -/
  | fn
  deriving DecidableEq, Repr

/-- The operations of R59. No operation has an operand field in its selector (R55): an argument below
is the value on the operand port of the sub-block the operation belongs to (R55, R91). -/
inductive Instr where
  /-- RESET, the host's event (R160). -/
  | reset
  /-- TICK, the timing source's event (R117). -/
  | tick
  /-- RUN, the driver's event (R118). -/
  | run
  /-- ENTER, Idle to Servicing (R111). -/
  | enter
  /-- ACK, handler step (1) (R112). -/
  | ack
  /-- ADV, handler step (2) (R113). -/
  | adv
  /-- LKP, handler step (3) (R114). -/
  | lkp
  /-- WR, handler step (4) (R115). -/
  | wr
  /-- RET, handler step (5) (R116). -/
  | ret
  /-- Q0, first quadrant (R82). -/
  | q0 (d : Degree)
  /-- Q1, second quadrant (R83). -/
  | q1 (d : Degree)
  /-- Q2, third quadrant (R84). -/
  | q2 (d : Degree)
  /-- Q3, fourth quadrant (R85). -/
  | q3 (d : Degree)
  /-- SAMPLE, the ROM read (R70). -/
  | sample (index : RomAddr)
  /-- NORM, floored modulo 360 of the signed port (R80). -/
  | norm (degIn : DegPort)
  /-- LOOKUP, the resolver's composite (R86). -/
  | lookup (degIn : DegPort)
  /-- ADVANCE, on the register `angle` and the parameter `STEP` (R100). -/
  | advance
  /-- CURDEG, on the register `angle` (R102). -/
  | curdeg
  deriving DecidableEq, Repr

/-- The format column of R59. -/
def Instr.format : Instr → Format
  | .reset | .tick | .run => .ev
  | .enter | .ack | .adv | .lkp | .wr | .ret => .uop
  | .q0 _ | .q1 _ | .q2 _ | .q3 _ => .qd
  | .sample _ | .norm _ | .lookup _ | .advance | .curdeg => .fn

end Sys2Proof
end

