-- ==== Sys2Proof/WellFormed.lean ====
section
/-! DEFINITION. Which operations can be selected at all: a quadrant operation only on the degrees of its
own quadrant (spec/41_quadrant_lookup.md rules R81 to R85). Every other operation is well formed on every
value of its port: SAMPLE's port admits all 7-bit addresses (R31), NORM's and LOOKUP's every integer (R80). -/

namespace Sys2Proof

/-- `d` lies in the quadrant of Q0, [0, 90) (R82). -/
def inQ0 (d : Degree) : Bool := decide (d.toNat < 90)

/-- `d` lies in the quadrant of Q1, [90, 180) (R83). -/
def inQ1 (d : Degree) : Bool := decide (90 ≤ d.toNat) && decide (d.toNat < 180)

/-- `d` lies in the quadrant of Q2, [180, 270) (R84). -/
def inQ2 (d : Degree) : Bool := decide (180 ≤ d.toNat) && decide (d.toNat < 270)

/-- `d` lies in the quadrant of Q3, [270, 360) (R85). -/
def inQ3 (d : Degree) : Bool := decide (270 ≤ d.toNat) && decide (d.toNat < 360)

/-- The operation can be selected. -/
def WellFormed : Instr → Bool
  | .q0 d => inQ0 d
  | .q1 d => inQ1 d
  | .q2 d => inQ2 d
  | .q3 d => inQ3 d
  | .reset | .tick | .run => true
  | .enter | .ack | .adv | .lkp | .wr | .ret => true
  | .sample _ | .norm _ | .lookup _ | .advance | .curdeg => true

end Sys2Proof
end

