-- ==== Sys2Proof/Decode.lean ====
section
/-! DEFINITION. Decoding of selectors and its inverse (spec/30_encoding.md rules R50 to R60). A selector is
the bits of one format, with the value on the operation's operand port beside them. -/

namespace Sys2Proof

/-- The selectors of R50, one constructor for each format; format FN has no bits, so its five
functions are told apart by the sub-block port that is driven (R54, R91). -/
inductive Selector where
  /-- The event word (R51). -/
  | ev (w : EvWord)
  /-- The `phase` register (R52). -/
  | uop (p : Phase)
  /-- The quadrant code and the degree it was computed from (R53). -/
  | qd (q : QuadCode) (d : Degree)
  /-- The ROM's address port. -/
  | romPort (index : RomAddr)
  /-- The normaliser's degree port. -/
  | normPort (degIn : DegPort)
  /-- The resolver's degree port. -/
  | lookupPort (degIn : DegPort)
  /-- The accumulator's adder. -/
  | advancePort
  /-- The accumulator's degree output. -/
  | curdegPort
  deriving DecidableEq, Repr

/-- The format a selector belongs to. -/
def Selector.format : Selector → Format
  | .ev _ => .ev
  | .uop _ => .uop
  | .qd _ _ => .qd
  | .romPort _ | .normPort _ | .lookupPort _ | .advancePort | .curdegPort => .fn

/-- Why a selector selects no operation. -/
inductive DecodeError where
  /-- `phase` codes 6 and 7 are reserved (R52, R56). -/
  | reservedPhase
  /-- A quadrant code exists only for a normalised degree, 0..359 (R53, R81). -/
  | notNormalised
  /-- The code is not the one computed from the degree (R53, R81). -/
  | quadrantMismatch
  deriving DecidableEq, Repr

/-- Format EV (R51): `1x` RESET whatever `tick` is, `01` TICK, `00` RUN. -/
def decodeEvent (w : EvWord) : Instr :=
  if w.getLsbD 1 then .reset else if w.getLsbD 0 then .tick else .run

/-- Format UOP (R52): the whole `phase` register. -/
def decodePhase (p : Phase) : Except DecodeError Instr :=
  match p.toNat with
  | 0 => .ok .enter
  | 1 => .ok .ack
  | 2 => .ok .adv
  | 3 => .ok .lkp
  | 4 => .ok .wr
  | 5 => .ok .ret
  | _ => .error .reservedPhase

/-- The quadrant code, from the three comparisons of R81; on a normalised degree it is `d div 90`. -/
def quadrantCode (d : Degree) : QuadCode :=
  if d.toNat < 90 then 0#2
  else if d.toNat < 180 then 1#2
  else if d.toNat < 270 then 2#2
  else 3#2

/-- The operation a quadrant code names (R53). -/
def quadrantOp (q : QuadCode) (d : Degree) : Instr :=
  match q.toNat with
  | 0 => .q0 d
  | 1 => .q1 d
  | 2 => .q2 d
  | _ => .q3 d

/-- Format QD (R53): the code must be the one computed from a normalised degree. -/
def decodeQuadrant (q : QuadCode) (d : Degree) : Except DecodeError Instr :=
  if 360 ≤ d.toNat then .error .notNormalised
  else if q = quadrantCode d then .ok (quadrantOp q d)
  else .error .quadrantMismatch

/-- Decoding: total, rejecting by name (R60). -/
def decode : Selector → Except DecodeError Instr
  | .ev w => .ok (decodeEvent w)
  | .uop p => decodePhase p
  | .qd q d => decodeQuadrant q d
  | .romPort index => .ok (.sample index)
  | .normPort degIn => .ok (.norm degIn)
  | .lookupPort degIn => .ok (.lookup degIn)
  | .advancePort => .ok .advance
  | .curdegPort => .ok .curdeg

/-- The selector of an operation, from the tables of R51 to R54; RESET's canonical word is `10`. -/
def encode : Instr → Selector
  | .reset => .ev 0b10#2
  | .tick => .ev 0b01#2
  | .run => .ev 0b00#2
  | .enter => .uop 0b000#3
  | .ack => .uop 0b001#3
  | .adv => .uop 0b010#3
  | .lkp => .uop 0b011#3
  | .wr => .uop 0b100#3
  | .ret => .uop 0b101#3
  | .q0 d => .qd 0b00#2 d
  | .q1 d => .qd 0b01#2 d
  | .q2 d => .qd 0b10#2 d
  | .q3 d => .qd 0b11#2 d
  | .sample index => .romPort index
  | .norm degIn => .normPort degIn
  | .lookup degIn => .lookupPort degIn
  | .advance => .advancePort
  | .curdeg => .curdegPort

/-- The selector an untagged table word stands for. The tables of the formats overlap (R50), and the
word that the machine takes from outside is the event word (R58), so a word of two bits is an event word.
A word given as three bits, or one whose bit 2 is set (which no event word has), is a `phase` code.
A row of no bits (format FN) is no word. DESIGN CHOICE, log entry 13. -/
def tableSelector (nbits w : Nat) : Option Selector :=
  if nbits = 0 then none
  else if nbits = 3 ∨ 4 ≤ w then
    if w < 8 then some (.uop (BitVec.ofNat 3 w)) else none
  else some (.ev (BitVec.ofNat 2 w))

/-- What the decoder reads from a table word. -/
def decodeTableWord (nbits w : Nat) : Option Instr :=
  match tableSelector nbits w with
  | none => none
  | some sel => (decode sel).toOption

end Sys2Proof
end

