-- ==== Sys2Proof/Machine/Rom.lean ====
section
/-! DEFINITION. The family of sine_lookup_rom (spec/40_wavetable_rom.md): SAMPLE. -/

namespace Sys2Proof.Machine

/-- SAMPLE(index) (R70). -/
def sample (c : Config) (index : RomAddr) : Except Refusal Amp := memRead c index

/-- SAMPLE on the ROM's port, under any configuration. -/
def execSampleWith (c : Config) (index : RomAddr) (s : State) : Outcome :=
  showResult ((sample c index).map .amp) s

/-- SAMPLE (R70). -/
def execSample (index : RomAddr) (s : State) : Outcome := execSampleWith Config.device index s

end Sys2Proof.Machine
end

