-- ==== Sys2Proof/Machine/Resolver.lean ====
section
/-! DEFINITION. The family of quadrant_symmetry_resolver (spec/41_quadrant_lookup.md): NORM, Q0 to Q3, LOOKUP. -/

namespace Sys2Proof.Machine

/-- NORM(a): the floored modulo 360 (R7, R80); `%` on `Int` with a positive divisor is the floored one. -/
def norm (a : Int) : Degree := BitVec.ofNat 9 (a % 360).toNat

/-- Q0(d) (R82). -/
def quadrant0 (c : Config) (d : Degree) : Except Refusal Amp :=
  if inQ0 d then sample c (indexQ0 d) else .error .quadrantRange

/-- Q1(d) (R83). -/
def quadrant1 (c : Config) (d : Degree) : Except Refusal Amp :=
  if inQ1 d then (sample c (indexQ1 d)).map mirror else .error .quadrantRange

/-- Q2(d) (R84). -/
def quadrant2 (c : Config) (d : Degree) : Except Refusal Amp :=
  if inQ2 d then (sample c (indexQ2 d)).map mirror else .error .quadrantRange

/-- Q3(d) (R85). -/
def quadrant3 (c : Config) (d : Degree) : Except Refusal Amp :=
  if inQ3 d then sample c (indexQ3 d) else .error .quadrantRange

/-- The case of LOOKUP on the quadrant code (R81, R86). -/
def dispatchQuadrant (c : Config) (d : Degree) : Except Refusal Amp :=
  match (quadrantCode d).toNat with
  | 0 => quadrant0 c d
  | 1 => quadrant1 c d
  | 2 => quadrant2 c d
  | _ => quadrant3 c d

/-- LOOKUP(a), on every integer (R86). -/
def lookup (c : Config) (a : Int) : Except Refusal Amp := dispatchQuadrant c (norm a)

/-- The ROM address LOOKUP forms for a normalised degree (R53, R88). -/
def romIndex (d : Degree) : RomAddr :=
  match (quadrantCode d).toNat with
  | 0 => indexQ0 d
  | 1 => indexQ1 d
  | 2 => indexQ2 d
  | _ => indexQ3 d

/-- NORM on its port, under any configuration: the port's value is held and the normaliser's output is looked at. The
normalised degree is `shownWith` of the answered state and is not stored (R20 d). -/
def execNormWith (_c : Config) (degIn : DegPort) (s : State) : Outcome :=
  showResult (.ok (.normaliser degIn)) s

/-- Q0 on its port, under any configuration. -/
def execQ0With (c : Config) (d : Degree) (s : State) : Outcome :=
  showResult ((quadrant0 c d).map .amp) s

/-- Q1 on its port, under any configuration. -/
def execQ1With (c : Config) (d : Degree) (s : State) : Outcome :=
  showResult ((quadrant1 c d).map .amp) s

/-- Q2 on its port, under any configuration. -/
def execQ2With (c : Config) (d : Degree) (s : State) : Outcome :=
  showResult ((quadrant2 c d).map .amp) s

/-- Q3 on its port, under any configuration. -/
def execQ3With (c : Config) (d : Degree) (s : State) : Outcome :=
  showResult ((quadrant3 c d).map .amp) s

/-- LOOKUP on its port, under any configuration. -/
def execLookupWith (c : Config) (degIn : DegPort) (s : State) : Outcome :=
  showResult ((lookup c (portInteger degIn)).map .amp) s

/-- NORM (R80). -/
def execNorm (degIn : DegPort) (s : State) : Outcome := execNormWith Config.device degIn s

/-- Q0 (R82). -/
def execQ0 (d : Degree) (s : State) : Outcome := execQ0With Config.device d s

/-- Q1 (R83). -/
def execQ1 (d : Degree) (s : State) : Outcome := execQ1With Config.device d s

/-- Q2 (R84). -/
def execQ2 (d : Degree) (s : State) : Outcome := execQ2With Config.device d s

/-- Q3 (R85). -/
def execQ3 (d : Degree) (s : State) : Outcome := execQ3With Config.device d s

/-- LOOKUP (R86). -/
def execLookup (degIn : DegPort) (s : State) : Outcome := execLookupWith Config.device degIn s

end Sys2Proof.Machine
end

