-- ==== Sys2Proof/Machine/Driver.lean ====
section
/-! DEFINITION. The family of sample_output_driver (spec/43_output_driver.md): ENTER, ACK, ADV, LKP, WR, RET and
the dispatch RUN. Each meaning is its rule's pseudocode; which one runs is RUN's choice by `phase` (log
entry 4). -/

namespace Sys2Proof.Machine

/-- ENTER: guard `tick_flag = 1`, then the handler is entered. With the guard false there is no step and the
driver stays Idle (R111), which in this deterministic runner is an unchanged state (R58; log entry 3). -/
def execEnterWith (_c : Config) (s : State) : Outcome :=
  if tickPending s then .next (takeTick s) else .next s

/-- ACK, handler step (1) (R112). -/
def execAckWith (_c : Config) (s : State) : Outcome :=
  .next (setPhase 2#3 (emit .ack (clearTickFlag s)))

/-- ADV, handler step (2) (R113). -/
def execAdvWith (c : Config) (s : State) : Outcome :=
  .next (setPhase 3#3 (writeAngle (advance c s.angle) s))

/-- LKP, handler step (3): one lookup at the present angle (R114). The refusing arm is SAMPLE's and is
never taken, since LOOKUP never fails (R86, R88). -/
def execLkpWith (c : Config) (s : State) : Outcome :=
  match lookup c (portInteger (degOperand (curdeg s.angle))) with
  | .ok v => .next (setPhase 4#3 (writeAmp v s))
  | .error e => .refused e

/-- WR, handler step (4): all 13 bits, unchanged (R115). -/
def execWrWith (_c : Config) (s : State) : Outcome :=
  .next (setPhase 5#3 (memWriteOut s.amp s))

/-- RET, handler step (5) (R116). -/
def execRetWith (_c : Config) (s : State) : Outcome := .next (returnFromTick s)

/-- RUN: exactly one micro-operation, the one `phase` selects (R118). A reserved code has no step: the driver is
stuck, never Idle, and the runner leaves the state unchanged (R56, R58, R118; log entry 3). -/
def execRunWith (c : Config) (s : State) : Outcome :=
  match s.phase.toNat with
  | 0 => execEnterWith c s
  | 1 => execAckWith c s
  | 2 => execAdvWith c s
  | 3 => execLkpWith c s
  | 4 => execWrWith c s
  | 5 => execRetWith c s
  | _ => .next s

/-- ENTER (R111). -/
def execEnter (s : State) : Outcome := execEnterWith Config.device s

/-- ACK (R112). -/
def execAck (s : State) : Outcome := execAckWith Config.device s

/-- ADV (R113). -/
def execAdv (s : State) : Outcome := execAdvWith Config.device s

/-- LKP (R114). -/
def execLkp (s : State) : Outcome := execLkpWith Config.device s

/-- WR (R115). -/
def execWr (s : State) : Outcome := execWrWith Config.device s

/-- RET (R116). -/
def execRet (s : State) : Outcome := execRetWith Config.device s

/-- RUN (R118). -/
def execRun (s : State) : Outcome := execRunWith Config.device s

end Sys2Proof.Machine
end

