-- ==== Sys2Proof/Machine/Environment.lean ====
section
/-! DEFINITION. The events of the environment: RESET (spec/70_reset_and_hazards.md rule R160) and TICK
(spec/43_output_driver.md rule R117). -/

namespace Sys2Proof.Machine

/-- RESET under any configuration (R160). -/
def execResetWith (c : Config) (s : State) : Outcome := .next (resetElements c s)

/-- TICK: the device latches, the event is recorded with the value latched, the flag is set (R117). -/
def execTickWith (_c : Config) (s : State) : Outcome :=
  .next (setTickFlag (emit (.latch s.dhr) (emit .tick (latchOutput s))))

/-- RESET (R160). -/
def execReset (s : State) : Outcome := execResetWith Config.device s

/-- TICK (R117). -/
def execTick (s : State) : Outcome := execTickWith Config.device s

end Sys2Proof.Machine
end

