-- ==== Sys2Proof/Machine/Dispatch.lean ====
section
/-! DEFINITION. The dispatch: one arm for each constructor of Instr, one direct call of its meaning. -/

namespace Sys2Proof.Machine

def exec (i : Instr) (s : State) : Host.Outcome State Fault Refusal :=
  match i with
  | .reset => Sys2Proof.Machine.execReset s
  | .tick => Sys2Proof.Machine.execTick s
  | .run => Sys2Proof.Machine.execRun s
  | .enter => Sys2Proof.Machine.execEnter s
  | .ack => Sys2Proof.Machine.execAck s
  | .adv => Sys2Proof.Machine.execAdv s
  | .lkp => Sys2Proof.Machine.execLkp s
  | .wr => Sys2Proof.Machine.execWr s
  | .ret => Sys2Proof.Machine.execRet s
  | .q0 d => Sys2Proof.Machine.execQ0 d s
  | .q1 d => Sys2Proof.Machine.execQ1 d s
  | .q2 d => Sys2Proof.Machine.execQ2 d s
  | .q3 d => Sys2Proof.Machine.execQ3 d s
  | .sample index => Sys2Proof.Machine.execSample index s
  | .norm degIn => Sys2Proof.Machine.execNorm degIn s
  | .lookup degIn => Sys2Proof.Machine.execLookup degIn s
  | .advance => Sys2Proof.Machine.execAdvance s
  | .curdeg => Sys2Proof.Machine.execCurdeg s

end Sys2Proof.Machine
end

