-- ==== Sys2Proof/Machine/Fetch.lean ====
section
/-! DEFINITION. Where the next event comes from. The block has no instruction memory (spec/30_encoding.md rule
R50): the event words of a schedule are presented from outside (R51, R58). Log entries 1, 2 and 13. -/

namespace Sys2Proof.Machine

/-- The event word presented next: the schedule's first, or a free one when none is scheduled (R110). -/
def nextEvent (s : State) : EvWord :=
  match s.schedule with
  | w :: _ => w
  | [] => Config.envEvent s.envIndex

/-- The state once that word has been presented. -/
def consumeEvent (s : State) : State :=
  match s.schedule with
  | _ :: rest => { s with schedule := rest }
  | [] => { s with envIndex := s.envIndex + 1 }

/-- Make the very next step run the operation a selector selects: an event word is put first in the
schedule; a `phase` code is put into `phase` and RUN (word `00`) is put first, since RUN is the only way a
micro-operation is performed (R118). A QD or FN selector is not presented from outside. -/
def placeSelector (sel : Selector) (s : State) : State :=
  match sel with
  | .ev w => { s with schedule := w :: s.schedule }
  | .uop p => { s with phase := p, schedule := 0b00#2 :: s.schedule }
  | .qd _ _ | .romPort _ | .normPort _ | .lookupPort _ | .advancePort | .curdegPort => s

/-- The same for an untagged table word. -/
def placeTableWord (nbits w : Nat) (s : State) : State :=
  match tableSelector nbits w with
  | some sel => placeSelector sel s
  | none => s

end Sys2Proof.Machine
end

