-- ==== Sys2Proof/Machine/Step.lean ====
section
/-! DEFINITION. One step of the machine: the next event word is presented, decoded and executed
(spec/43_output_driver.md rule R110). -/

namespace Sys2Proof.Machine

/-- One event. -/
def step (s : State) : Host.Outcome State Fault Refusal :=
  exec (decodeEvent (nextEvent s)) (consumeEvent s)

/-- The state whose very next step runs the table word (log entry 13). -/
def State.withFetchWord (s : State) (nbits w : Nat) : State := placeTableWord nbits w s

end Sys2Proof.Machine
end

