-- ==== Sys2Proof/Machine/Parametric.lean ====
section
/-! DEFINITION. The same machine under any configuration. The spec's claims quantify over `STEP`, `TABLE`,
`INIT_TICK_FLAG` and `DacNarrow` (spec/00_scope.md rule R5), and the fixed names run the defaults only. -/

namespace Sys2Proof.Machine

/-- `exec` under any configuration: the shared meanings, arm by arm. -/
def execWith (c : Config) (i : Instr) (s : State) : Outcome :=
  match i with
  | .reset => execResetWith c s
  | .tick => execTickWith c s
  | .run => execRunWith c s
  | .enter => execEnterWith c s
  | .ack => execAckWith c s
  | .adv => execAdvWith c s
  | .lkp => execLkpWith c s
  | .wr => execWrWith c s
  | .ret => execRetWith c s
  | .q0 d => execQ0With c d s
  | .q1 d => execQ1With c d s
  | .q2 d => execQ2With c d s
  | .q3 d => execQ3With c d s
  | .sample index => execSampleWith c index s
  | .norm degIn => execNormWith c degIn s
  | .lookup degIn => execLookupWith c degIn s
  | .advance => execAdvanceWith c s
  | .curdeg => execCurdegWith c s

/-- `step` under any configuration. -/
def stepWith (c : Config) (s : State) : Outcome :=
  execWith c (decodeEvent (nextEvent s)) (consumeEvent s)

/-- The machine under any configuration. -/
def coreWith (c : Config) : Host.Core :=
  { State := State, Fault := Fault, Refusal := Refusal, step := stepWith c, reset := State.resetWith c }

/-- `n` steps under any configuration, stopping where a step does not answer a next state. -/
def runWith (c : Config) : Nat → State → Outcome
  | 0, s => .next s
  | n + 1, s =>
    match stepWith c s with
    | .next t => runWith c n t
    | .fault r => .fault r
    | .refused r => .refused r

end Sys2Proof.Machine
end

