-- ==== Sys2Proof/Machine/Ports.lean ====
section
/-! DEFINITION. The ports of the block and of its sub-blocks while a micro-operation runs (spec/43_output_driver.md
rule R125, R91, R107), what a sub-block driven on its own shows, and the 12-bit view of the output (spec/10_state.md
rule R18). All are views: nothing
here is state. -/

namespace Sys2Proof.Machine

/-- `dor12 = DacNarrow(dor)` when `dor` is not `none` (R18). -/
def dor12 (c : Config) (s : State) : Option Dac12 := s.dor.map c.dacNarrow

/-- The values an output of a sub-block can show (R91, R107). -/
inductive PortValue where
  /-- `rom_data` or `amp_out`. -/
  | amp (v : Amp)
  /-- The normalised degree. -/
  | degree (d : Degree)
  /-- `deg`, ten bits (log entry 9). -/
  | wideDegree (d : WideDegree)
  /-- The adder's output. -/
  | angle (a : Angle)
  deriving DecidableEq, Repr

/-- What the output looked at shows: the sub-blocks are combinational, so a degree or an angle is computed anew from
the registers and the driven port (R20 d, R80, R91, R100, R102, R107). -/
def portShown (c : Config) (s : State) : Readout → PortValue
  | .amp v => .amp v
  | .normaliser degIn => .degree (norm (portInteger degIn))
  | .adder => .angle (advance c s.angle)
  | .deg => .wideDegree (curdeg s.angle)

/-- The result of the QD or FN operation executed last (log entry 6). -/
def shownWith (c : Config) (s : State) : Option PortValue := s.readout.map (portShown c s)

/-- The same at the documented defaults. -/
def shown (s : State) : Option PortValue := shownWith Config.device s

/-- The driver is Idle exactly when `phase = 0`, Servicing exactly when it is in 1..5 (R14, R146). -/
def isIdle (s : State) : Bool := decide (s.phase.toNat = 0)

/-- Servicing (R14, R146). -/
def isServicing (s : State) : Bool := decide (1 ≤ s.phase.toNat) && decide (s.phase.toNat ≤ 5)

/-- The ports (R125, R91, R107). `dacData` is meaningful while `dacWr` is pulsed (log entry 15). -/
structure Ports where
  tickAck : Bool
  dacWr : Bool
  dacData : Option Amp
  adv : Bool
  angleOut : Angle
  deg : WideDegree
  degIn : DegPort
  romAddr : RomAddr
  romData : Option Amp
  ampOut : Option Amp
  deriving DecidableEq, Repr

/-- The ports in state `s` while RUN performs the micro-operation `phase` selects: `tick_ack` is pulsed by
ACK, `adv` by ADV, `dac_wr` by WR; the resolver and the ROM are combinational on `angle`. -/
def portsDuringRun (c : Config) (s : State) : Ports where
  tickAck := decide (s.phase.toNat = 1)
  adv := decide (s.phase.toNat = 2)
  dacWr := decide (s.phase.toNat = 4)
  dacData := if s.phase.toNat = 4 then s.amp else none
  angleOut := s.angle
  deg := curdeg s.angle
  degIn := degOperand (curdeg s.angle)
  romAddr := romIndex (norm (portInteger (degOperand (curdeg s.angle))))
  romData := (sample c (romIndex (norm (portInteger (degOperand (curdeg s.angle)))))).toOption
  ampOut := (lookup c (portInteger (degOperand (curdeg s.angle)))).toOption

end Sys2Proof.Machine
end

