-- ==== Sys2Proof/Machine/Relation.lean ====
section
/-! DEFINITION. The step relation of the spec (spec/43_output_driver.md rule R110), written over natural numbers and
with the document's formulas, beside the function `step` and not in terms of it. In this relation an event
without a step does not exist (R118). -/

namespace Sys2Proof.Machine

/-- The events of R110. -/
inductive Event where
  | reset
  | tick
  | run
  deriving DecidableEq, Repr

/-- The event of an event word (R51). -/
def eventOf (w : EvWord) : Event :=
  if 2 ≤ w.toNat then .reset else if w.toNat = 1 then .tick else .run

/-- `TABLE(i)` at a natural index in 0..90; no formula reads it elsewhere (R88). -/
def wordAt (c : Config) (i : Nat) : Nat := if h : i < 91 then (c.table ⟨i, h⟩).val else 0

/-- The amplitude the document gives for an integer degree (R86, R89): the four formulas of R82 to R85 on the
degree reduced into [0, 360). -/
def formulaAmp (c : Config) (a : Int) : Nat :=
  let d := (a.fmod 360).toNat
  if d < 90 then wordAt c d
  else if d < 180 then 0x1000 - wordAt c (180 - d)
  else if d < 270 then 0x1000 - wordAt c (d - 180)
  else wordAt c (360 - d)

/-- One conditional subtraction (R100), over the naturals. -/
def advanceNat (a stepMdeg : Nat) : Nat :=
  if 360000 ≤ a + stepMdeg then a + stepMdeg - 360000 else a + stepMdeg

/-- `Moves c e s t`: event `e` takes state `s` to state `t` (R110 to R118, R160). -/
inductive Moves (c : Config) : Event → State → State → Prop where
  | reset (s : State) :
      Moves c .reset s { s with
        angle := 0, phase := 0, amp := none, tickFlag := c.initTickFlag, dhr := none, dor := none, history := [] }
  | tick (s : State) :
      Moves c .tick s { s with
        dor := s.dhr, tickFlag := true, history := s.history ++ [.tick, .latch s.dhr] }
  | enter (s : State) (hp : s.phase = 0) (hf : s.tickFlag = true) :
      Moves c .run s { s with phase := 1 }
  | ack (s : State) (hp : s.phase = 1) :
      Moves c .run s { s with phase := 2, tickFlag := false, history := s.history ++ [.ack] }
  | adv (s : State) (a : Angle) (hp : s.phase = 2) (ha : a.toNat = advanceNat s.angle.toNat c.step.val) :
      Moves c .run s { s with phase := 3, angle := a }
  | lkp (s : State) (v : Amp) (hp : s.phase = 3) (hv : v.toNat = formulaAmp c (s.angle.toNat / 1000 : Nat)) :
      Moves c .run s { s with phase := 4, amp := some v }
  | wr (s : State) (hp : s.phase = 4) :
      Moves c .run s { s with phase := 5, dhr := s.amp, history := s.history ++ [.wr s.amp] }
  | ret (s : State) (hp : s.phase = 5) :
      Moves c .run s { s with phase := 0 }

/-- When the driver has a step (R110). -/
def driverEnabled (s : State) : Bool :=
  (decide (1 ≤ s.phase.toNat) && decide (s.phase.toNat ≤ 5)) || (decide (s.phase.toNat = 0) && s.tickFlag)

end Sys2Proof.Machine
end

