-- ==== Sys2Proof/Machine/Schedule.lean ====
section
/-! DEFINITION. Schedules, the block's "assembly" (spec/30_encoding.md rule R58): lines, their expansion into event
words, and when a pseudo-instruction may be used. -/

namespace Sys2Proof.Machine

/-- A line of a schedule. -/
inductive Line where
  | reset
  | tick
  | run
  /-- `RUN n` -/
  | runTimes (n : Nat)
  /-- `SERVICE` -/
  | service
  /-- `FRAME` -/
  | frame
  /-- `FRAME n` -/
  | frameTimes (n : Nat)
  deriving DecidableEq, Repr

/-- `SERVICE`: six RUNs (R58). -/
def serviceWords : List EvWord := List.replicate 6 0b00#2

/-- `FRAME`: TICK then SERVICE (R58). -/
def frameWords : List EvWord := 0b01#2 :: serviceWords

/-- `FRAME n` (R58). -/
def framesWords : Nat → List EvWord
  | 0 => []
  | n + 1 => frameWords ++ framesWords n

/-- The event words of a line (R51, R58); RESET's canonical word is `10`. -/
def Line.words : Line → List EvWord
  | .reset => [0b10#2]
  | .tick => [0b01#2]
  | .run => [0b00#2]
  | .runTimes n => List.replicate n 0b00#2
  | .service => serviceWords
  | .frame => frameWords
  | .frameTimes n => framesWords n

/-- The event words of a schedule, in order (R58). -/
def scheduleWords (ls : List Line) : List EvWord := ls.flatMap Line.words

/-- When a pseudo-instruction may be used, as far as the state at its start says (R58). -/
def Line.allowedAt (l : Line) (s : State) : Bool :=
  match l with
  | .reset | .tick | .run | .runTimes _ => true
  | .service => isIdle s && s.tickFlag
  | .frame | .frameTimes _ => isIdle s && !s.tickFlag

/-- Present a list of event words first. -/
def present (ws : List EvWord) (s : State) : State := { s with schedule := ws ++ s.schedule }

/-- Present a list of event words and run exactly that many steps: a schedule run (R58). -/
def runSchedule (c : Config) (ws : List EvWord) (s : State) : Outcome :=
  runWith c ws.length (present ws s)

end Sys2Proof.Machine
end

