-- ==== Sys2Proof/Safety.lean ====
section
/-! DEFINITION. What claims are stated in: the invariants of every state a run reaches, the readings of the ghost
history, the on-time premise, and what is ghost (spec/10_state.md, spec/43_output_driver.md, spec/95_test_vectors.md
section 4). -/

namespace Sys2Proof.Machine

/-- The seven elements of R10, without the model's own fields: what the spec's rules speak of. -/
structure Elements where
  angle : Angle
  phase : Phase
  amp : Option Amp
  tickFlag : Bool
  dhr : Option Amp
  dor : Option Amp
  history : List Entry
  deriving DecidableEq, Repr

/-- The spec's part of a state (R10). -/
def State.elements (s : State) : Elements where
  angle := s.angle
  phase := s.phase
  amp := s.amp
  tickFlag := s.tickFlag
  dhr := s.dhr
  dor := s.dor
  history := s.history

/-- An element is `none` or an amplitude in [0, 0x1000] (R10, U20). -/
def ampOk : Option Amp → Bool
  | none => true
  | some v => decide (v.toNat ≤ 0x1000)

/-- A history entry carries an amplitude in range, or none (R19, R88). -/
def entryOk : Entry → Bool
  | .tick | .ack => true
  | .latch v | .wr v => ampOk v

/-- The invariant of every state reached from RESET: `angle` below a revolution (R12), a legal `phase` (R13, R56),
amplitudes in range (R88), an amplitude present when WR is next (R15), and a tick pending until ACK clears
it (R111, R112). -/
structure StateInv (s : State) : Prop where
  angle_lt : s.angle.toNat < 360000
  phase_le : s.phase.toNat ≤ 5
  amp_ok : ampOk s.amp = true
  dhr_ok : ampOk s.dhr = true
  dor_ok : ampOk s.dor = true
  history_ok : ∀ e ∈ s.history, entryOk e = true
  amp_before_write : s.phase.toNat = 4 → s.amp ≠ none
  pending_before_ack : s.phase.toNat = 1 → s.tickFlag = true

/-- How many TICKs a history records. -/
def ticks (h : List Entry) : Nat := h.countP (fun e => decide (e = .tick))

/-- How many ACKs a history records. -/
def acks (h : List Entry) : Nat := h.countP (fun e => decide (e = .ack))

/-- The values written by WR, oldest first. -/
def writes (h : List Entry) : List (Option Amp) :=
  h.filterMap fun | .wr v => some v | _ => none

/-- The values latched by TICK, oldest first. -/
def latches (h : List Entry) : List (Option Amp) :=
  h.filterMap fun | .latch v => some v | _ => none

/-- How many times ADV has run since RESET: once for each ACK, but for the service whose ADV is next (R119). -/
def advances (s : State) : Nat := acks s.history - (if s.phase.toNat = 2 then 1 else 0)

/-- How many times WR has run since RESET: once for each ACK, but for the service that has not written yet. -/
def written (s : State) : Nat :=
  acks s.history - (if 2 ≤ s.phase.toNat ∧ s.phase.toNat ≤ 4 then 1 else 0)

/-- `V_k = LOOKUP(CURDEG((k * STEP) mod 360000))` by the document's formulas (R123). -/
def outputAt (c : Config) (k : Nat) : Amp :=
  BitVec.ofNat 13 (formulaAmp c ((k * c.step.val % 360000 / 1000 : Nat) : Int))

/-- What the history of a run from RESET says of the state, on time or not: the closed form of the angle
(R103), the k-th write (R19, R123), what the device registers hold (R17, R18), and that no tick is acknowledged
that was not signalled (95_test_vectors.md section 4, claim 6). -/
structure HistoryInv (c : Config) (s : State) : Prop where
  base : StateInv s
  service_acked : 2 ≤ s.phase.toNat → s.phase.toNat ≤ 4 → 1 ≤ acks s.history
  angle_eq : s.angle.toNat = advances s * c.step.val % 360000
  writes_eq : writes s.history = (List.range (written s)).map (fun k => some (outputAt c (k + 1)))
  amp_eq : s.phase.toNat = 4 → s.amp = some (outputAt c (acks s.history))
  dhr_eq : s.dhr = (writes s.history).getLast?.join
  dor_eq : s.dor = (latches s.history).getLast?.join
  latch_each_tick : (latches s.history).length = ticks s.history
  ack_le_tick : acks s.history + s.tickFlag.toNat ≤ ticks s.history + c.initTickFlag.toNat

/-- Quiescent: the driver waits and nothing is pending (R169). -/
def quiescent (s : State) : Bool := decide (s.phase.toNat = 0) && !s.tickFlag

/-- The event presented next is on time: a TICK only in a quiescent state (R120). -/
def OnTimeEvent (s : State) : Prop := eventOf (nextEvent s) = .tick → quiescent s = true

/-- The premise `OnTime` over the next `n` steps (R120, R163). -/
def OnTimeFor (c : Config) : Nat → State → Prop
  | 0, _ => True
  | n + 1, s => OnTimeEvent s ∧ ∀ t, stepWith c s = .next t → OnTimeFor c n t

/-- What holds besides in an on-time run that starts with no tick pending (R123): every tick but the one being
taken is acknowledged, and the k-th latch is the (k-1)-st write, the first one `none`. -/
structure OnTimeInv (c : Config) (s : State) : Prop where
  base : HistoryInv c s
  tick_each_ack : ticks s.history = acks s.history + s.tickFlag.toNat
  pending_early : s.tickFlag = true → s.phase.toNat ≤ 1
  latches_eq : latches s.history =
    (List.range (ticks s.history)).map (fun k => if k = 0 then none else some (outputAt c k))

/-- What the block never reads: the history, the device's latch, and the model's readout (R10, R18, R19). -/
def eraseUnread (s : State) : State := { s with history := [], dor := none, readout := none }

/-- The same function applied to the next state of an outcome. -/
def mapNext (f : State → State) : Outcome → Outcome
  | .next t => .next (f t)
  | .fault r => .fault r
  | .refused r => .refused r

end Sys2Proof.Machine
end

