-- ==== Sys2Proof/Certificates/Slice0/Obligations.lean ====
section
/-! DEFINITION. The statements for the provers. Each docstring names the rule of spec/ it formalises.
"Elements" are the seven elements of 10_state.md rule R10, so that a statement of a rule says nothing of the
model's own fields. -/

open Sys2Proof Sys2Proof.Machine

/-! ## Encoding and decoding -/

/-- Every well-formed operation, with every value of its operand port, decodes back from its selector
(30_encoding.md R51 to R54). -/
def Obligations.EncodedOperationDecodesBack : Prop :=
  ∀ i : Instr, WellFormed i = true → decode (encode i) = .ok i

/-- The decoder accepts only selectors of well-formed operations, and each operation has one selector, but for
RESET, which the words `10` and `11` both name (R51, R53). -/
def Obligations.DecodedSelectorIsCanonical : Prop :=
  ∀ (sel : Selector) (i : Instr), decode sel = .ok i →
    WellFormed i = true ∧ (sel = encode i ∨ (sel = .ev 0b11#2 ∧ i = .reset))

/-- Words written out from the tables of R51 to R53. -/
def Obligations.TableWordsDecodeAsListed : Prop :=
  decode (.ev 0b10#2) = .ok .reset ∧ decode (.ev 0b11#2) = .ok .reset ∧ decode (.ev 0b01#2) = .ok .tick ∧
  decode (.ev 0b00#2) = .ok .run ∧ decode (.uop 0b001#3) = .ok .ack ∧ decode (.uop 0b100#3) = .ok .wr ∧
  decode (.qd 0b01#2 90#9) = .ok (.q1 90#9) ∧ decode (.qd 0b11#2 359#9) = .ok (.q3 359#9)

/-- R60: every event word decodes to one of the three events, every phase to one of the six micro-operations or to
"reserved", and every normalised degree has exactly one quadrant code, the quotient by 90. -/
def Obligations.EverySelectorDecodesAsR60Says : Prop :=
  (∀ w : EvWord, decode (.ev w) = .ok .reset ∨ decode (.ev w) = .ok .tick ∨ decode (.ev w) = .ok .run) ∧
  (∀ p : Phase, (p.toNat ≤ 5 ∧ ∃ i : Instr, i.format = .uop ∧ decode (.uop p) = .ok i) ∨
    (5 < p.toNat ∧ decode (.uop p) = .error .reservedPhase)) ∧
  (∀ d : Degree, d.toNat < 360 → ∀ q : QuadCode, (∃ i, decode (.qd q d) = .ok i) ↔ q.toNat = d.toNat / 90)

/-- The model's choice (log entry 13): a table word that decodes is run by the very next step after
`withFetchWord`, in a state that differs at most in `phase`, the selector of a micro-operation. -/
def Obligations.FetchedTableWordRunsNext : Prop :=
  ∀ (s : State) (nbits w : Nat) (i : Instr), decodeTableWord nbits w = some i →
    ∃ p : Phase, step (s.withFetchWord nbits w) = exec i { s with phase := p } ∧
      (i.format = .ev → p = s.phase)

/-! ## The step -/

/-- A step runs the decoded event: the schedule's first word where there is one, else the free event of log
entry 2; the schedule moves on past the word (R51, R58, R110; holding it in State is the model's, log entry 1). -/
def Obligations.StepRunsDecodedEvent : Prop :=
  (∀ (s : State) (w : EvWord) (rest : List EvWord) (i : Instr), s.schedule = w :: rest →
    decode (.ev w) = .ok i → step s = exec i { s with schedule := rest }) ∧
  (∀ (s : State) (i : Instr), s.schedule = [] → decode (.ev (Config.envEvent s.envIndex)) = .ok i →
    step s = exec i { s with envIndex := s.envIndex + 1 })

/-- RUN performs exactly the micro-operation whose code `phase` holds, and always completes (R118). On a reserved
code, and on ENTER with no tick pending, the runner leaves the state unchanged (R58; log entry 3). -/
def Obligations.RunPerformsSelectedMicroOperation : Prop :=
  (∀ s : State, ∃ t, exec .run s = .next t) ∧
  (∀ (s : State) (i : Instr), decode (.uop s.phase) = .ok i → exec .run s = exec i s) ∧
  (∀ s : State, 5 < s.phase.toNat → exec .run s = .next s) ∧
  (∀ s : State, s.phase = 0#3 → s.tickFlag = false → exec .run s = .next s ∧ exec .enter s = .next s)

/-- The machine of the fixed names is the parametric machine at the documented defaults (log entry 7). -/
def Obligations.FixedMachineRunsTheDefaults : Prop :=
  (∀ (i : Instr) (s : State), exec i s = execWith Config.device i s) ∧
  (∀ s : State, step s = stepWith Config.device s) ∧
  State.reset = State.resetWith Config.device ∧
  Config.device.step.val = 8 ∧ Config.device.initTickFlag = false

/-- No event ever stops the block: it raises no exception (R140), LOOKUP never fails (R86), and there is no
terminal state (R170). From every state, under every configuration. At a RUN without a step (Idle with the flag clear,
phase 6 or 7) R118 and R152 have no step of the relation; that the step answers the unchanged state there is the
deterministic runner of R58, taken by log entry 3. -/
def Obligations.EveryStepAnswersNextState : Prop :=
  (∀ (c : Config) (s : State), ∃ t, stepWith c s = .next t) ∧ (∀ s : State, ∃ t, step s = .next t)

/-- The step function is the spec's step relation, made total by the runner of R58: a step is a move of the
relation (R110 to R118, R160), or the presented RUN has no step and only the event is used up. -/
def Obligations.StepIsTheEventRelation : Prop :=
  ∀ (c : Config) (s t : State), stepWith c s = .next t ↔
    (Moves c (eventOf (nextEvent s)) (consumeEvent s) t ∨
      (eventOf (nextEvent s) = .run ∧ driverEnabled s = false ∧ t = consumeEvent s))

/-! ## The events and the micro-operations, with their frames -/

/-- RESET (R160): its values from every state, under every configuration, and RESET after RESET changes nothing. -/
def Obligations.ResetSetsEveryElement : Prop :=
  (∀ s : State, ∃ t, exec .reset s = .next t ∧ t.elements = State.reset.elements) ∧
  (∀ (c : Config) (s : State), ∃ t, execWith c .reset s = .next t ∧ execWith c .reset t = .next t ∧
    t.elements = ⟨0#19, 0#3, none, c.initTickFlag, none, none, []⟩)

/-- TICK (R117): the device latches the `dhr` of the state before, `none` included, both entries are recorded, the
flag is set; `phase`, `angle`, `amp` and `dhr` stay. -/
def Obligations.TickLatchesAndSetsFlag : Prop :=
  ∀ s : State, ∃ t, exec .tick s = .next t ∧
    t.elements = { s.elements with
      dor := s.dhr, tickFlag := true, history := s.history ++ [.tick, .latch s.dhr] }

/-- ENTER (R111) with a tick pending: only `phase` changes, the flag is not cleared. With none pending the Idle driver has
no step. -/
def Obligations.EnterTakesPendingTick : Prop :=
  (∀ s : State, s.tickFlag = true → ∃ t, exec .enter s = .next t ∧ t.elements = { s.elements with phase := 1#3 }) ∧
  (∀ (c : Config) (s t : State), s.phase = 0#3 → s.tickFlag = false → ¬ Moves c .run s t)

/-- ACK (R112): the flag is cleared whatever it was, the entry is recorded, nothing else but `phase` changes. -/
def Obligations.AckClearsTickFlag : Prop :=
  ∀ s : State, ∃ t, exec .ack s = .next t ∧
    t.elements = { s.elements with phase := 2#3, tickFlag := false, history := s.history ++ [.ack] }

/-- ADV (R113, R100): `angle` becomes ADVANCE of it, one conditional subtraction over the naturals, on every
19-bit angle and under every configuration; nothing else but `phase` changes. -/
def Obligations.AdvWritesAdvancedAngle : Prop :=
  (∀ s : State, ∃ t, exec .adv s = .next t ∧ t.elements = { s.elements with phase := 3#3, angle := t.angle } ∧
    t.angle.toNat = advanceNat s.angle.toNat 8) ∧
  (∀ (c : Config) (s : State), ∃ t, execWith c .adv s = .next t ∧
    t.elements = { s.elements with phase := 3#3, angle := t.angle } ∧
    t.angle.toNat = advanceNat s.angle.toNat c.step.val)

/-- LKP (R114): `amp` becomes the document's amplitude for the whole degrees of `angle`, a number in [0, 0x1000],
from every state and under every configuration; nothing else but `phase` changes. -/
def Obligations.LkpWritesLookupOfDegrees : Prop :=
  (∀ s : State, ∃ t v, exec .lkp s = .next t ∧ t.elements = { s.elements with phase := 4#3, amp := some v } ∧
    v.toNat = formulaAmp Config.device (s.angle.toNat / 1000 : Nat) ∧ v.toNat ≤ 0x1000) ∧
  (∀ (c : Config) (s : State), ∃ t v, execWith c .lkp s = .next t ∧
    t.elements = { s.elements with phase := 4#3, amp := some v } ∧
    v.toNat = formulaAmp c (s.angle.toNat / 1000 : Nat) ∧ v.toNat ≤ 0x1000)

/-- WR (R115, R32): the sample register takes `amp` unchanged, all 13 bits, and the write is recorded; `dor` does not
move. The rule's number `v` is the premise: WR never runs with `amp = none` (R15). -/
def Obligations.WrStoresAmplitudeUnchanged : Prop :=
  ∀ (s : State) (v : Amp), s.amp = some v → ∃ t, exec .wr s = .next t ∧
    t.elements = { s.elements with phase := 5#3, dhr := some v, history := s.history ++ [.wr (some v)] }

/-- The model's choice (log entry 10): WR in the unreachable state with `amp = none` copies `none`, which is never
turned into a number (R24). -/
def Obligations.WrWithoutAmplitudeCopiesNone : Prop :=
  ∀ s : State, s.amp = none → ∃ t, exec .wr s = .next t ∧
    t.elements = { s.elements with phase := 5#3, dhr := none, history := s.history ++ [.wr none] }

/-- RET (R116): back to Idle, nothing restored, the flag not looked at. -/
def Obligations.RetReturnsToIdle : Prop :=
  ∀ s : State, ∃ t, exec .ret s = .next t ∧ t.elements = { s.elements with phase := 0#3 }

/-- No operation touches the schedule or the index of the free events, and the block's own nine operations leave the
readout alone (the model's own fields; log entries 1, 2, 6, 12). -/
def Obligations.OperationsLeaveModelFieldsAlone : Prop :=
  ∀ (c : Config) (i : Instr) (s t : State), execWith c i s = .next t →
    t.schedule = s.schedule ∧ t.envIndex = s.envIndex ∧
    ((i.format = .ev ∨ i.format = .uop) → t.readout = s.readout)

/-- Which operation may change which element: the "written by" column of R10, with RUN standing for the
micro-operation it performs. -/
def Obligations.OnlyNamedOperationsWriteAnElement : Prop :=
  ∀ (c : Config) (i : Instr) (s t : State), execWith c i s = .next t →
    (t.angle ≠ s.angle → i = .adv ∨ i = .reset ∨ (i = .run ∧ s.phase = 2#3)) ∧
    (t.phase ≠ s.phase → i.format = .uop ∨ i = .reset ∨ i = .run) ∧
    (t.amp ≠ s.amp → i = .lkp ∨ i = .reset ∨ (i = .run ∧ s.phase = 3#3)) ∧
    (t.tickFlag ≠ s.tickFlag → i = .tick ∨ i = .ack ∨ i = .reset ∨ (i = .run ∧ s.phase = 1#3)) ∧
    (t.dhr ≠ s.dhr → i = .wr ∨ i = .reset ∨ (i = .run ∧ s.phase = 4#3)) ∧
    (t.dor ≠ s.dor → i = .tick ∨ i = .reset) ∧
    (t.history ≠ s.history → i = .tick ∨ i = .ack ∨ i = .wr ∨ i = .reset ∨
      (i = .run ∧ (s.phase = 1#3 ∨ s.phase = 4#3)))

/-- How `phase` moves in one step (R13, R14, R122): it stays, or goes on by one, or returns from 5 to 0, or RESET made it
0; a service is entered only from Idle and only with a tick pending. -/
def Obligations.PhaseMovesAlongTheSequence : Prop :=
  ∀ (c : Config) (s t : State), stepWith c s = .next t →
    (t.phase = s.phase ∨ (s.phase.toNat ≤ 4 ∧ t.phase.toNat = s.phase.toNat + 1) ∨
      (s.phase = 5#3 ∧ t.phase = 0#3) ∨ (eventOf (nextEvent s) = .reset ∧ t.phase = 0#3)) ∧
    (isIdle s = true → isServicing t = true → s.tickFlag = true ∧ t.phase = 1#3)

/-! ## The ROM and the resolver -/

/-- SAMPLE (R70): a table word for addresses 0..90, the refusal `rom_range` for 91..127, and no other effect, for every
table; with the default table 0 at address 0, 0x1000 at address 90, and that is the only word above 12 bits. -/
def Obligations.SampleReadsTheRom : Prop :=
  (∀ (index : RomAddr) (s : State) (h : index.toNat ≤ 90), ∃ t v, exec (.sample index) s = .next t ∧
    shown t = some (.amp v) ∧ v.toNat = (Config.device.table ⟨index.toNat, by omega⟩).val ∧
    t.elements = s.elements) ∧
  (∀ (index : RomAddr) (s : State), 90 < index.toNat → exec (.sample index) s = .refused .romRange) ∧
  (∀ (c : Config) (index : RomAddr) (h : index.toNat ≤ 90), ∃ v, sample c index = .ok v ∧
    v.toNat = (c.table ⟨index.toNat, by omega⟩).val) ∧
  (∀ (c : Config) (index : RomAddr), 90 < index.toNat → sample c index = .error .romRange) ∧
  (Config.device.table 0).val = 0 ∧ (Config.device.table 90).val = 0x1000 ∧
  (∀ i : Fin 91, 0xFFF < (Config.device.table i).val ↔ i.val = 90)

/-- NORM (R80): on every 32-bit port value, and on every integer, the result is in [0, 360) and differs from the
argument by a multiple of 360; no element changes. -/
def Obligations.NormIsTheFlooredModulo : Prop :=
  (∀ (degIn : DegPort) (s : State), ∃ t d, exec (.norm degIn) s = .next t ∧ shown t = some (.degree d) ∧
    t.elements = s.elements ∧ d.toNat < 360 ∧ ∃ k : Int, degIn.toInt = 360 * k + d.toNat) ∧
  (∀ a : Int, (Sys2Proof.Machine.norm a).toNat < 360 ∧ ∃ k : Int, a = 360 * k + (Sys2Proof.Machine.norm a).toNat)

/-- Q0 to Q3 (R82 to R85), each on every degree of its own quadrant: the ROM index and the formula, no element changes, and
the same for every table. -/
def Obligations.QuadrantOperationsFollowTheirFormulas : Prop :=
  (∀ (d : Degree) (s : State), d.toNat < 90 → ∃ t v, exec (.q0 d) s = .next t ∧ t.elements = s.elements ∧
    shown t = some (.amp v) ∧ v.toNat = wordAt Config.device d.toNat) ∧
  (∀ (d : Degree) (s : State), 90 ≤ d.toNat → d.toNat < 180 → ∃ t v, exec (.q1 d) s = .next t ∧
    t.elements = s.elements ∧ shown t = some (.amp v) ∧
    v.toNat = 0x1000 - wordAt Config.device (180 - d.toNat)) ∧
  (∀ (d : Degree) (s : State), 180 ≤ d.toNat → d.toNat < 270 → ∃ t v, exec (.q2 d) s = .next t ∧
    t.elements = s.elements ∧ shown t = some (.amp v) ∧
    v.toNat = 0x1000 - wordAt Config.device (d.toNat - 180)) ∧
  (∀ (d : Degree) (s : State), 270 ≤ d.toNat → d.toNat < 360 → ∃ t v, exec (.q3 d) s = .next t ∧
    t.elements = s.elements ∧ shown t = some (.amp v) ∧ v.toNat = wordAt Config.device (360 - d.toNat)) ∧
  (∀ (c : Config) (d : Degree),
    (d.toNat < 90 → ∃ v, quadrant0 c d = .ok v ∧ v.toNat = wordAt c d.toNat) ∧
    (90 ≤ d.toNat → d.toNat < 180 → ∃ v, quadrant1 c d = .ok v ∧ v.toNat = 0x1000 - wordAt c (180 - d.toNat)) ∧
    (180 ≤ d.toNat → d.toNat < 270 → ∃ v, quadrant2 c d = .ok v ∧ v.toNat = 0x1000 - wordAt c (d.toNat - 180)) ∧
    (270 ≤ d.toNat → d.toNat < 360 → ∃ v, quadrant3 c d = .ok v ∧ v.toNat = wordAt c (360 - d.toNat)))

/-- The model's choice (log entry 11): a quadrant operation driven with a degree outside its own quadrant, where its
code is not the one R81 computes, is refused by name. -/
def Obligations.QuadrantOperationRefusesForeignDegree : Prop :=
  ∀ (d : Degree) (s : State),
    (90 ≤ d.toNat → exec (.q0 d) s = .refused .quadrantRange) ∧
    (d.toNat < 90 ∨ 180 ≤ d.toNat → exec (.q1 d) s = .refused .quadrantRange) ∧
    (d.toNat < 180 ∨ 270 ≤ d.toNat → exec (.q2 d) s = .refused .quadrantRange) ∧
    (d.toNat < 270 ∨ 360 ≤ d.toNat → exec (.q3 d) s = .refused .quadrantRange)

/-- LOOKUP (R86): on every integer and every table it answers the amplitude of the document's formulas, by way of the
one quadrant operation R81 selects; and it completes on every value of its port with no element changed. -/
def Obligations.LookupFollowsTheDocumentFormulas : Prop :=
  (∀ (degIn : DegPort) (s : State), ∃ t v, exec (.lookup degIn) s = .next t ∧ t.elements = s.elements ∧
    shown t = some (.amp v) ∧ v.toNat = formulaAmp Config.device degIn.toInt) ∧
  (∀ (c : Config) (a : Int), ∃ v, lookup c a = .ok v ∧ v.toNat = formulaAmp c a)

/-- LOOKUP is NORM, then the quadrant operation whose code the decoder reads from the normalised degree (R81, R86):
it answers the very state that operation answers. -/
def Obligations.LookupIsNormThenQuadrantOperation : Prop :=
  ∀ (degIn : DegPort) (s t : State) (d : Degree) (i : Instr),
    exec (.norm degIn) s = .next t → shown t = some (.degree d) →
    decode (.qd (quadrantCode d) d) = .ok i → exec (.lookup degIn) s = exec i s

/-- R88: the ROM index LOOKUP forms is always in 0..90, every index there is formed by some degree, Q0 and Q2 form
0..89 and Q1 and Q3 form 1..90, the result is always in [0, 0x1000], and with the default table 0x1000 is answered exactly at 180 and 270 and 0 exactly at 0 and
90. -/
def Obligations.LookupRangeAndReachability : Prop :=
  (∀ a : Int, (romIndex (Sys2Proof.Machine.norm a)).toNat ≤ 90) ∧
  (∀ i : RomAddr, i.toNat ≤ 90 → ∃ a : Int, romIndex (Sys2Proof.Machine.norm a) = i) ∧
  (∀ d : Degree, (inQ0 d = true ∨ inQ2 d = true → (romIndex d).toNat ≤ 89) ∧
    (inQ1 d = true ∨ inQ3 d = true → 1 ≤ (romIndex d).toNat ∧ (romIndex d).toNat ≤ 90)) ∧
  (∀ (c : Config) (a : Int) (v : Amp), lookup c a = .ok v → v.toNat ≤ 0x1000) ∧
  (∀ (a : Int) (v : Amp), lookup Config.device a = .ok v →
    (v.toNat = 0x1000 ↔ a % 360 = 180 ∨ a % 360 = 270) ∧ (v.toNat = 0 ↔ a % 360 = 0 ∨ a % 360 = 90))

/-- R89, for every table: periodicity; the four formulas on [0, 360); the mirror identities; the half-turn identity; the
reflection at every degree of [1, 359] but 90 and 270; and with the default table its failure there. -/
def Obligations.LookupSymmetries : Prop :=
  (∀ (c : Config) (a : Int), lookup c a = lookup c (a % 360)) ∧
  (∀ (c : Config) (a : Nat) (v : Amp), lookup c a = .ok v →
    (a < 90 → v.toNat = wordAt c a) ∧
    (90 ≤ a → a < 180 → v.toNat = 0x1000 - wordAt c (180 - a)) ∧
    (180 ≤ a → a < 270 → v.toNat = 0x1000 - wordAt c (a - 180)) ∧
    (270 ≤ a → a < 360 → v.toNat = wordAt c (360 - a))) ∧
  (∀ (c : Config) (d : Int) (v w : Amp), 91 ≤ d → d < 180 → lookup c d = .ok v → lookup c (180 - d) = .ok w →
    v.toNat = 0x1000 - w.toNat) ∧
  (∀ (c : Config) (d : Int) (v w : Amp), 180 ≤ d → d < 270 → lookup c d = .ok v → lookup c (d - 180) = .ok w →
    v.toNat = 0x1000 - w.toNat) ∧
  (∀ (c : Config) (d : Int) (v w : Amp), 0 ≤ d → d < 180 → lookup c d = .ok v → lookup c (d + 180) = .ok w →
    v.toNat + w.toNat = 0x1000) ∧
  (∀ (c : Config) (d : Int), 1 ≤ d → d ≤ 359 → d ≠ 90 → d ≠ 270 → lookup c d = lookup c (360 - d)) ∧
  (∀ (c : Config) (v w : Amp), lookup c 90 = .ok v → lookup c 270 = .ok w →
    v.toNat = 0x1000 - wordAt c 90 ∧ w.toNat = wordAt c 90) ∧
  (∀ (v w : Amp), lookup Config.device 90 = .ok v → lookup Config.device 270 = .ok w → v.toNat = 0 ∧ w.toNat = 0x1000)

/-- R71: every default ROM word is 4096 times the sine of its index in degrees, rounded to the nearest integer. -/
def Obligations.DefaultTableIsTheRoundedSine : Prop :=
  ∀ i : Fin 91, |4096 * Real.sin ((i.val : ℝ) * Real.pi / 180) - ((defaultTable i).val : ℝ)| < 1 / 2

/-! ## The accumulator -/

/-- ADVANCE (R100): one compare and at most one subtraction on every 19-bit angle; on every angle in range it is addition
modulo a revolution and stays in range, for every configuration; on its own it changes no element. -/
def Obligations.AdvanceIsAdditionModuloRevolution : Prop :=
  (∀ s : State, ∃ t a, exec .advance s = .next t ∧ t.elements = s.elements ∧ shown t = some (.angle a) ∧
    a.toNat = advanceNat s.angle.toNat 8) ∧
  (∀ (c : Config) (a : Angle), (advance c a).toNat =
    if 360000 ≤ a.toNat + c.step.val then a.toNat + c.step.val - 360000 else a.toNat + c.step.val) ∧
  (∀ (c : Config) (a : Angle), a.toNat < 360000 →
    (advance c a).toNat = (a.toNat + c.step.val) % 360000 ∧ (advance c a).toNat < 360000)

/-- CURDEG (R102): truncating division by 1000 on every 19-bit angle, below 360 on every angle in range; no element
changes. -/
def Obligations.CurdegTruncatesToDegrees : Prop :=
  (∀ s : State, ∃ t d, exec .curdeg s = .next t ∧ t.elements = s.elements ∧ shown t = some (.wideDegree d) ∧
    d.toNat = s.angle.toNat / 1000) ∧
  (∀ a : Angle, a.toNat < 360000 → (curdeg a).toNat < 360)

/-- The datapath functions driven on their own show what the micro-operations use: ADV writes what ADVANCE shows, LKP
writes what LOOKUP shows on the zero-extended output of CURDEG (R54, R113, R114). -/
def Obligations.MicroOperationsUseTheDatapath : Prop :=
  (∀ (c : Config) (s t u : State) (a : Angle), execWith c .adv s = .next t → execWith c .advance s = .next u →
    shownWith c u = some (.angle a) → t.angle = a) ∧
  (∀ (c : Config) (s t u r : State) (d : WideDegree) (v : Amp), execWith c .lkp s = .next t →
    execWith c .curdeg s = .next u → shownWith c u = some (.wideDegree d) →
    execWith c (.lookup (d.setWidth 32)) s = .next r → shownWith c r = some (.amp v) → t.amp = some v)

/-- R103: after k advances from 0 the angle is `(k * STEP) mod 360000`, and between two wraps the degree never
decreases. -/
def Obligations.AdvanceClosedForm : Prop :=
  (∀ (c : Config) (k : Nat), ((advance c)^[k] 0#19).toNat = k * c.step.val % 360000) ∧
  (∀ (c : Config) (a : Angle), a.toNat < 360000 → a.toNat + c.step.val < 360000 →
    (curdeg a).toNat ≤ (curdeg (advance c a)).toNat)

/-- R105: for `STEP > 0` the first wrap after RESET is at advance number ceil(360000 / STEP); the sequence of angles has
exactly the period 360000 / gcd(360000, STEP), during which it wraps STEP / gcd(360000, STEP) times. -/
def Obligations.AngleSequencePeriod : Prop :=
  ∀ c : Config, 0 < c.step.val →
    (∀ k : Nat, wraps (advanceSum c ((advance c)^[k] 0#19)) = true → (360000 + c.step.val - 1) / c.step.val ≤ k + 1) ∧
    wraps (advanceSum c ((advance c)^[(360000 + c.step.val - 1) / c.step.val - 1] 0#19)) = true ∧
    (∀ (a : Angle) (n : Nat), a.toNat < 360000 →
      ((advance c)^[n] a = a ↔ 360000 / Nat.gcd 360000 c.step.val ∣ n)) ∧
    (List.range (360000 / Nat.gcd 360000 c.step.val)).countP (fun k => wraps (advanceSum c ((advance c)^[k] 0#19)))
      = c.step.val / Nat.gcd 360000 c.step.val

/-- R106: with `STEP = 0` ADVANCE is the identity on every angle in range, an angle of 0 stays 0 at every step, and every
LKP at it computes TABLE(0). -/
def Obligations.StepZeroNeverMovesTheAngle : Prop :=
  ∀ c : Config, c.step.val = 0 →
    (∀ a : Angle, a.toNat < 360000 → advance c a = a) ∧
    (∀ s t : State, s.angle = 0#19 → stepWith c s = .next t → t.angle = 0#19) ∧
    (∀ s t : State, s.angle = 0#19 → s.phase = 3#3 → execWith c .run s = .next t →
      t.amp = some (romWord c 0))

/-- R6, R101, R152: written parameters build a configuration exactly when they meet the constraints, and it carries
them. -/
def Obligations.ConfigurationRefusedExactlyOutsideConstraints : Prop :=
  (∀ r : RawConfig, (∃ c, Config.ofRaw r = .ok c) ↔
    (r.step < 360000 ∧ r.table.length = 91 ∧ ∀ w ∈ r.table, w ≤ 4096)) ∧
  (∀ (r : RawConfig) (c : Config), Config.ofRaw r = .ok c → c.step.val = r.step ∧
    c.initTickFlag = r.initTickFlag ∧ ∀ i : Fin 91, r.table[i.val]? = some (c.table i).val)

/-! ## Whole-machine rules -/

/-- The state after RESET meets the invariants, under every configuration (R12, R13, R23). -/
def Obligations.ResetStateMeetsInvariants : Prop :=
  StateInv State.reset ∧ (∀ c : Config, StateInv (State.resetWith c) ∧ HistoryInv c (State.resetWith c) ∧
    (c.initTickFlag = false → OnTimeInv c (State.resetWith c)))

/-- Every step keeps the invariant of the state, from every state that meets it and under every configuration: `angle` in
range (R12), `phase` legal (R13, R56), amplitudes in range (R88), WR never without an amplitude (R15). -/
def Obligations.StepKeepsStateInvariant : Prop :=
  (∀ (c : Config) (s t : State), StateInv s → stepWith c s = .next t → StateInv t) ∧
  (∀ s t : State, StateInv s → step s = .next t → StateInv t)

/-- Every step keeps what the history says, on time or not: the angle is `(advances * STEP) mod 360000` (R103), the k-th
write is `LOOKUP(CURDEG((k * STEP) mod 360000))` (R19, R123), the device registers hold the last write and the last latch
(R17, R18), and no more ticks are acknowledged than were signalled. -/
def Obligations.StepKeepsHistoryInvariant : Prop :=
  ∀ (c : Config) (s t : State), HistoryInv c s → stepWith c s = .next t → HistoryInv c t

/-- An on-time run keeps the latch sequence of R123: TICK k latches the write of the service before it, the first one
`none`. Under the premise `OnTime` over any number of steps (R120). -/
def Obligations.OnTimeRunLatchesEveryWrite : Prop :=
  ∀ (c : Config) (n : Nat) (s t : State), c.initTickFlag = false → OnTimeInv c s → OnTimeFor c n s →
    runWith c n s = .next t → OnTimeInv c t

/-- R123 over frames: k frames from RESET are an on-time run, end quiescent at `(k * STEP) mod 360000`, and write and latch
the sequences of the rule. -/
def Obligations.FramesProduceTheOutputSequence : Prop :=
  ∀ (c : Config) (k : Nat), c.initTickFlag = false →
    OnTimeFor c (framesWords k).length (present (framesWords k) (State.resetWith c)) ∧
    ∃ t, runSchedule c (framesWords k) (State.resetWith c) = .next t ∧ quiescent t = true ∧
      t.angle.toNat = k * c.step.val % 360000 ∧
      writes t.history = (List.range k).map (fun j => some (outputAt c (j + 1))) ∧
      latches t.history = (List.range k).map (fun j => if j = 0 then none else some (outputAt c j))

/-- R119: one uninterrupted service is one advance, one lookup at the new angle and one write. -/
def Obligations.ServiceIsOneAdvanceLookupWrite : Prop :=
  ∀ (c : Config) (s : State), s.phase = 0#3 → s.tickFlag = true →
    ∃ t v, runSchedule c serviceWords s = .next t ∧ lookup c ((curdeg (advance c s.angle)).toNat : Int) = .ok v ∧
      t.elements = ⟨advance c s.angle, 0#3, some v, false, some v, s.dor, s.history ++ [.ack, .wr (some v)]⟩

/-- R122: no micro-operation of a service waits, so whatever TICKs fall among them, RUNs take the driver on one by one and
back to Idle after exactly `6 - phase` of them. -/
def Obligations.ServiceReachesIdleUnderAnyTicks : Prop :=
  ∀ (c : Config) (s : State) (ws : List EvWord), isServicing s = true → (∀ w ∈ ws, w = 0b00#2 ∨ w = 0b01#2) →
    s.phase.toNat + ws.count 0b00#2 ≤ 6 →
    ∃ t, runSchedule c ws s = .next t ∧ t.phase.toNat = (s.phase.toNat + ws.count 0b00#2) % 6

/-- R121 (b): any number of TICKs before one service merge into one pending tick: one acknowledge, one advance. -/
def Obligations.MergedTicksAdvanceOnce : Prop :=
  ∀ (c : Config) (s : State) (n : Nat), s.phase = 0#3 →
    ∃ t, runSchedule c (List.replicate (n + 1) 0b01#2 ++ serviceWords) s = .next t ∧ quiescent t = true ∧
      t.angle = advance c s.angle ∧ ticks t.history = ticks s.history + (n + 1) ∧
      acks t.history = acks s.history + 1

/-- R121 (a): a TICK after ACK and before WR (phase 2, 3 or 4, the flag clear) latches the old sample again and sets the
flag; the service completes, a second one follows at once, and the sample the first one writes is overwritten before the
next TICK latches. No advance is lost: of the two TICKs one is acknowledged and one is pending. The first sample is
the lookup at the service's own angle, or the `amp` LKP has already left (phase 4). -/
def Obligations.EarlyTickDropsASample : Prop :=
  ∀ (c : Config) (s : State), 2 ≤ s.phase.toNat → s.phase.toNat ≤ 4 → s.tickFlag = false →
    ∃ (t : State) (v : Option Amp) (w : Amp) (a : Angle),
      runSchedule c ([0b01#2] ++ List.replicate (6 - s.phase.toNat) 0b00#2 ++ serviceWords ++ [0b01#2]) s = .next t ∧
      a = (if s.phase = 2#3 then advance c s.angle else s.angle) ∧
      (s.phase = 4#3 → v = s.amp) ∧
      (s.phase ≠ 4#3 → ∃ x, lookup c ((curdeg a).toNat : Int) = .ok x ∧ v = some x) ∧
      lookup c ((curdeg (advance c a)).toNat : Int) = .ok w ∧
      t.angle = advance c a ∧ t.tickFlag = true ∧
      writes t.history = writes s.history ++ [v, some w] ∧
      latches t.history = latches s.history ++ [s.dhr, some w] ∧
      ticks t.history = ticks s.history + 2 ∧ acks t.history = acks s.history + 1

/-- R162: the first ticks after RESET, for both values of `INIT_TICK_FLAG`. -/
def Obligations.FirstTicksAfterReset : Prop :=
  ∀ c : Config,
    (c.initTickFlag = false → ∃ t, runSchedule c (frameWords ++ [0b01#2]) (State.resetWith c) = .next t ∧
      latches t.history = [none, some (outputAt c 1)] ∧ writes t.history = [some (outputAt c 1)]) ∧
    (c.initTickFlag = true → ∃ t u, runSchedule c serviceWords (State.resetWith c) = .next t ∧
      ticks t.history = 0 ∧ t.angle.toNat = c.step.val ∧
      runSchedule c [0b01#2] t = .next u ∧ u.dor = some (outputAt c 1))

/-- Nothing reads the history, the device's latch or the model's readout (R10, R18, R19): with them erased every step
takes the same course. -/
def Obligations.UnreadElementsDoNotInfluenceSteps : Prop :=
  ∀ (c : Config) (s : State),
    mapNext eraseUnread (stepWith c s) = mapNext eraseUnread (stepWith c (eraseUnread s))

/-- The ports (R125, R91, R107): during a RUN `tick_ack`, `adv` and `dac_wr` are pulsed by ACK, ADV and WR alone, and the
registers behind them take what the ports carry; the ROM port stays within the ROM. -/
def Obligations.PortsCarryTheMicroOperations : Prop :=
  ∀ (c : Config) (s t : State), execWith c .run s = .next t →
    ((portsDuringRun c s).dacWr = true → (portsDuringRun c s).dacData = s.amp ∧ t.dhr = (portsDuringRun c s).dacData) ∧
    ((portsDuringRun c s).dacWr = false → t.dhr = s.dhr) ∧
    ((portsDuringRun c s).tickAck = true → t.tickFlag = false) ∧
    ((portsDuringRun c s).tickAck = false → t.tickFlag = s.tickFlag) ∧
    ((portsDuringRun c s).adv = true → t.angle = advance c (portsDuringRun c s).angleOut) ∧
    ((portsDuringRun c s).adv = false → t.angle = (portsDuringRun c s).angleOut) ∧
    (s.phase = 3#3 → t.amp = (portsDuringRun c s).ampOut) ∧
    ((portsDuringRun c s).tickAck = true ↔ s.phase = 1#3) ∧
    ((portsDuringRun c s).adv = true ↔ s.phase = 2#3) ∧
    ((portsDuringRun c s).dacWr = true ↔ s.phase = 4#3) ∧
    ((portsDuringRun c s).romAddr.toNat ≤ 90 ∧ (portsDuringRun c s).romData ≠ none)

/-- R18, R6 (c): the 12-bit view of the output is there exactly when something was latched, and is the latched value where
12 bits hold it; above that the device is not determined (log entry 8), and nothing is said. -/
def Obligations.TwelveBitViewKeepsSmallSamples : Prop :=
  ∀ (c : Config) (s : State), (dor12 c s = none ↔ s.dor = none) ∧
    (∀ v : Amp, s.dor = some v → v.toNat ≤ 4095 → ∃ x, dor12 c s = some x ∧ x.toNat = v.toNat)

/-- R58: the pseudo-instructions expand to base events, and where R58 lets `FRAME n` be used it ends where it may be used
again, having recorded one TICK and one ACK each time. -/
def Obligations.FramesMayFollowFrames : Prop :=
  (∀ n : Nat, (Line.frameTimes n).words = (List.replicate n frameWords).flatten) ∧
  (∀ (c : Config) (s : State) (n : Nat), (Line.frameTimes n).allowedAt s = true →
    ∃ t, runSchedule c (Line.frameTimes n).words s = .next t ∧ (Line.frameTimes n).allowedAt t = true ∧
      ticks t.history = ticks s.history + n ∧ acks t.history = acks s.history + n)
end

