-- ==== Sys2Proof/Laws/State.lean ====
section
/-! SUPPORT. One lemma for each field of State under each named update, so that no proof unfolds one. -/

namespace Sys2Proof.Machine

section
variable (s : State)

@[simp] theorem setPhase_angle (p : Phase) : (setPhase p s).angle = s.angle := rfl
@[simp] theorem setPhase_phase (p : Phase) : (setPhase p s).phase = p := rfl
@[simp] theorem setPhase_amp (p : Phase) : (setPhase p s).amp = s.amp := rfl
@[simp] theorem setPhase_tickFlag (p : Phase) : (setPhase p s).tickFlag = s.tickFlag := rfl
@[simp] theorem setPhase_dhr (p : Phase) : (setPhase p s).dhr = s.dhr := rfl
@[simp] theorem setPhase_dor (p : Phase) : (setPhase p s).dor = s.dor := rfl
@[simp] theorem setPhase_history (p : Phase) : (setPhase p s).history = s.history := rfl
@[simp] theorem setPhase_schedule (p : Phase) : (setPhase p s).schedule = s.schedule := rfl
@[simp] theorem setPhase_envIndex (p : Phase) : (setPhase p s).envIndex = s.envIndex := rfl
@[simp] theorem setPhase_readout (p : Phase) : (setPhase p s).readout = s.readout := rfl

@[simp] theorem writeAngle_angle (a : Angle) : (writeAngle a s).angle = a := rfl
@[simp] theorem writeAngle_phase (a : Angle) : (writeAngle a s).phase = s.phase := rfl
@[simp] theorem writeAngle_amp (a : Angle) : (writeAngle a s).amp = s.amp := rfl
@[simp] theorem writeAngle_tickFlag (a : Angle) : (writeAngle a s).tickFlag = s.tickFlag := rfl
@[simp] theorem writeAngle_dhr (a : Angle) : (writeAngle a s).dhr = s.dhr := rfl
@[simp] theorem writeAngle_dor (a : Angle) : (writeAngle a s).dor = s.dor := rfl
@[simp] theorem writeAngle_history (a : Angle) : (writeAngle a s).history = s.history := rfl
@[simp] theorem writeAngle_schedule (a : Angle) : (writeAngle a s).schedule = s.schedule := rfl
@[simp] theorem writeAngle_envIndex (a : Angle) : (writeAngle a s).envIndex = s.envIndex := rfl
@[simp] theorem writeAngle_readout (a : Angle) : (writeAngle a s).readout = s.readout := rfl

@[simp] theorem writeAmp_angle (v : Amp) : (writeAmp v s).angle = s.angle := rfl
@[simp] theorem writeAmp_phase (v : Amp) : (writeAmp v s).phase = s.phase := rfl
@[simp] theorem writeAmp_amp (v : Amp) : (writeAmp v s).amp = some v := rfl
@[simp] theorem writeAmp_tickFlag (v : Amp) : (writeAmp v s).tickFlag = s.tickFlag := rfl
@[simp] theorem writeAmp_dhr (v : Amp) : (writeAmp v s).dhr = s.dhr := rfl
@[simp] theorem writeAmp_dor (v : Amp) : (writeAmp v s).dor = s.dor := rfl
@[simp] theorem writeAmp_history (v : Amp) : (writeAmp v s).history = s.history := rfl
@[simp] theorem writeAmp_schedule (v : Amp) : (writeAmp v s).schedule = s.schedule := rfl
@[simp] theorem writeAmp_envIndex (v : Amp) : (writeAmp v s).envIndex = s.envIndex := rfl
@[simp] theorem writeAmp_readout (v : Amp) : (writeAmp v s).readout = s.readout := rfl

@[simp] theorem emit_angle (e : Entry) : (emit e s).angle = s.angle := rfl
@[simp] theorem emit_phase (e : Entry) : (emit e s).phase = s.phase := rfl
@[simp] theorem emit_amp (e : Entry) : (emit e s).amp = s.amp := rfl
@[simp] theorem emit_tickFlag (e : Entry) : (emit e s).tickFlag = s.tickFlag := rfl
@[simp] theorem emit_dhr (e : Entry) : (emit e s).dhr = s.dhr := rfl
@[simp] theorem emit_dor (e : Entry) : (emit e s).dor = s.dor := rfl
@[simp] theorem emit_history (e : Entry) : (emit e s).history = s.history ++ [e] := rfl
@[simp] theorem emit_schedule (e : Entry) : (emit e s).schedule = s.schedule := rfl
@[simp] theorem emit_envIndex (e : Entry) : (emit e s).envIndex = s.envIndex := rfl
@[simp] theorem emit_readout (e : Entry) : (emit e s).readout = s.readout := rfl

@[simp] theorem memWriteOut_angle (v : Option Amp) : (memWriteOut v s).angle = s.angle := rfl
@[simp] theorem memWriteOut_phase (v : Option Amp) : (memWriteOut v s).phase = s.phase := rfl
@[simp] theorem memWriteOut_amp (v : Option Amp) : (memWriteOut v s).amp = s.amp := rfl
@[simp] theorem memWriteOut_tickFlag (v : Option Amp) : (memWriteOut v s).tickFlag = s.tickFlag := rfl
@[simp] theorem memWriteOut_dhr (v : Option Amp) : (memWriteOut v s).dhr = v := rfl
@[simp] theorem memWriteOut_dor (v : Option Amp) : (memWriteOut v s).dor = s.dor := rfl
@[simp] theorem memWriteOut_history (v : Option Amp) : (memWriteOut v s).history = s.history ++ [.wr v] := rfl
@[simp] theorem memWriteOut_schedule (v : Option Amp) : (memWriteOut v s).schedule = s.schedule := rfl
@[simp] theorem memWriteOut_envIndex (v : Option Amp) : (memWriteOut v s).envIndex = s.envIndex := rfl
@[simp] theorem memWriteOut_readout (v : Option Amp) : (memWriteOut v s).readout = s.readout := rfl

@[simp] theorem latchOutput_angle : (latchOutput s).angle = s.angle := rfl
@[simp] theorem latchOutput_phase : (latchOutput s).phase = s.phase := rfl
@[simp] theorem latchOutput_amp : (latchOutput s).amp = s.amp := rfl
@[simp] theorem latchOutput_tickFlag : (latchOutput s).tickFlag = s.tickFlag := rfl
@[simp] theorem latchOutput_dhr : (latchOutput s).dhr = s.dhr := rfl
@[simp] theorem latchOutput_dor : (latchOutput s).dor = s.dhr := rfl
@[simp] theorem latchOutput_history : (latchOutput s).history = s.history := rfl
@[simp] theorem latchOutput_schedule : (latchOutput s).schedule = s.schedule := rfl
@[simp] theorem latchOutput_envIndex : (latchOutput s).envIndex = s.envIndex := rfl
@[simp] theorem latchOutput_readout : (latchOutput s).readout = s.readout := rfl

@[simp] theorem setTickFlag_angle : (setTickFlag s).angle = s.angle := rfl
@[simp] theorem setTickFlag_phase : (setTickFlag s).phase = s.phase := rfl
@[simp] theorem setTickFlag_amp : (setTickFlag s).amp = s.amp := rfl
@[simp] theorem setTickFlag_tickFlag : (setTickFlag s).tickFlag = true := rfl
@[simp] theorem setTickFlag_dhr : (setTickFlag s).dhr = s.dhr := rfl
@[simp] theorem setTickFlag_dor : (setTickFlag s).dor = s.dor := rfl
@[simp] theorem setTickFlag_history : (setTickFlag s).history = s.history := rfl
@[simp] theorem setTickFlag_schedule : (setTickFlag s).schedule = s.schedule := rfl
@[simp] theorem setTickFlag_envIndex : (setTickFlag s).envIndex = s.envIndex := rfl
@[simp] theorem setTickFlag_readout : (setTickFlag s).readout = s.readout := rfl

@[simp] theorem clearTickFlag_angle : (clearTickFlag s).angle = s.angle := rfl
@[simp] theorem clearTickFlag_phase : (clearTickFlag s).phase = s.phase := rfl
@[simp] theorem clearTickFlag_amp : (clearTickFlag s).amp = s.amp := rfl
@[simp] theorem clearTickFlag_tickFlag : (clearTickFlag s).tickFlag = false := rfl
@[simp] theorem clearTickFlag_dhr : (clearTickFlag s).dhr = s.dhr := rfl
@[simp] theorem clearTickFlag_dor : (clearTickFlag s).dor = s.dor := rfl
@[simp] theorem clearTickFlag_history : (clearTickFlag s).history = s.history := rfl
@[simp] theorem clearTickFlag_schedule : (clearTickFlag s).schedule = s.schedule := rfl
@[simp] theorem clearTickFlag_envIndex : (clearTickFlag s).envIndex = s.envIndex := rfl
@[simp] theorem clearTickFlag_readout : (clearTickFlag s).readout = s.readout := rfl

@[simp] theorem takeTick_angle : (takeTick s).angle = s.angle := rfl
@[simp] theorem takeTick_phase : (takeTick s).phase = 1#3 := rfl
@[simp] theorem takeTick_amp : (takeTick s).amp = s.amp := rfl
@[simp] theorem takeTick_tickFlag : (takeTick s).tickFlag = s.tickFlag := rfl
@[simp] theorem takeTick_dhr : (takeTick s).dhr = s.dhr := rfl
@[simp] theorem takeTick_dor : (takeTick s).dor = s.dor := rfl
@[simp] theorem takeTick_history : (takeTick s).history = s.history := rfl
@[simp] theorem takeTick_schedule : (takeTick s).schedule = s.schedule := rfl
@[simp] theorem takeTick_envIndex : (takeTick s).envIndex = s.envIndex := rfl
@[simp] theorem takeTick_readout : (takeTick s).readout = s.readout := rfl

@[simp] theorem returnFromTick_angle : (returnFromTick s).angle = s.angle := rfl
@[simp] theorem returnFromTick_phase : (returnFromTick s).phase = 0#3 := rfl
@[simp] theorem returnFromTick_amp : (returnFromTick s).amp = s.amp := rfl
@[simp] theorem returnFromTick_tickFlag : (returnFromTick s).tickFlag = s.tickFlag := rfl
@[simp] theorem returnFromTick_dhr : (returnFromTick s).dhr = s.dhr := rfl
@[simp] theorem returnFromTick_dor : (returnFromTick s).dor = s.dor := rfl
@[simp] theorem returnFromTick_history : (returnFromTick s).history = s.history := rfl
@[simp] theorem returnFromTick_schedule : (returnFromTick s).schedule = s.schedule := rfl
@[simp] theorem returnFromTick_envIndex : (returnFromTick s).envIndex = s.envIndex := rfl
@[simp] theorem returnFromTick_readout : (returnFromTick s).readout = s.readout := rfl

@[simp] theorem resetElements_angle (c : Config) : (resetElements c s).angle = 0#19 := rfl
@[simp] theorem resetElements_phase (c : Config) : (resetElements c s).phase = 0#3 := rfl
@[simp] theorem resetElements_amp (c : Config) : (resetElements c s).amp = none := rfl
@[simp] theorem resetElements_tickFlag (c : Config) : (resetElements c s).tickFlag = c.initTickFlag := rfl
@[simp] theorem resetElements_dhr (c : Config) : (resetElements c s).dhr = none := rfl
@[simp] theorem resetElements_dor (c : Config) : (resetElements c s).dor = none := rfl
@[simp] theorem resetElements_history (c : Config) : (resetElements c s).history = [] := rfl
@[simp] theorem resetElements_schedule (c : Config) : (resetElements c s).schedule = s.schedule := rfl
@[simp] theorem resetElements_envIndex (c : Config) : (resetElements c s).envIndex = s.envIndex := rfl
@[simp] theorem resetElements_readout (c : Config) : (resetElements c s).readout = s.readout := rfl

@[simp] theorem present_angle (ws : List EvWord) : (present ws s).angle = s.angle := rfl
@[simp] theorem present_phase (ws : List EvWord) : (present ws s).phase = s.phase := rfl
@[simp] theorem present_amp (ws : List EvWord) : (present ws s).amp = s.amp := rfl
@[simp] theorem present_tickFlag (ws : List EvWord) : (present ws s).tickFlag = s.tickFlag := rfl
@[simp] theorem present_dhr (ws : List EvWord) : (present ws s).dhr = s.dhr := rfl
@[simp] theorem present_dor (ws : List EvWord) : (present ws s).dor = s.dor := rfl
@[simp] theorem present_history (ws : List EvWord) : (present ws s).history = s.history := rfl
@[simp] theorem present_schedule (ws : List EvWord) : (present ws s).schedule = ws ++ s.schedule := rfl
@[simp] theorem present_envIndex (ws : List EvWord) : (present ws s).envIndex = s.envIndex := rfl
@[simp] theorem present_readout (ws : List EvWord) : (present ws s).readout = s.readout := rfl

end

end Sys2Proof.Machine
end

