-- ==== Sys2Proof/Laws/Accumulator.lean ====
section
/-! SUPPORT. ADVANCE and CURDEG over the natural numbers (spec/42_phase_accumulator.md rules R100, R102). -/

namespace Sys2Proof.Machine

@[simp] theorem advanceSum_toNat (c : Config) (a : Angle) :
    (advanceSum c a).toNat = a.toNat + c.step.val := by
  have h1 := a.isLt
  have h2 := c.step.isLt
  simp only [advanceSum, angleOperand, stepOperand, BitVec.toNat_add, BitVec.toNat_setWidth,
    BitVec.toNat_ofNat]
  omega

/-- ADVANCE on every 19-bit angle is one conditional subtraction over the naturals. -/
theorem advance_toNat (c : Config) (a : Angle) :
    (advance c a).toNat = advanceNat a.toNat c.step.val := by
  have h1 := a.isLt
  have h2 := c.step.isLt
  have hs := advanceSum_toNat c a
  unfold advance wraps advanceNat
  by_cases h : 360000 ≤ (advanceSum c a).toNat
  · have h' : 360000 ≤ a.toNat + c.step.val := by omega
    simp only [h, h', decide_true, if_true, BitVec.toNat_setWidth, BitVec.toNat_sub,
      BitVec.toNat_ofNat]
    omega
  · have h' : ¬ 360000 ≤ a.toNat + c.step.val := by omega
    simp only [h, h', decide_false, if_false, BitVec.toNat_setWidth, Bool.false_eq_true]
    omega

theorem advanceNat_lt (a n : Nat) (ha : a < 360000) (hn : n < 360000) : advanceNat a n < 360000 := by
  unfold advanceNat
  split <;> omega

@[simp] theorem curdeg_toNat (a : Angle) : (curdeg a).toNat = a.toNat / 1000 := by
  have h := a.isLt
  simp only [curdeg, BitVec.toNat_ofNat]
  omega

end Sys2Proof.Machine
end

