-- ==== Sys2Proof/Laws/Decode.lean ====
section
/-! SUPPORT. What the decoder's parts answer, case by case (spec/30_encoding.md rules R51 to R53, R60). -/

namespace Sys2Proof

theorem decodePhase_of_five_lt (p : Phase) (h : 5 < p.toNat) :
    decodePhase p = .error .reservedPhase := by
  revert p
  decide

/-- The quadrant code is the degree divided by 90, on normalised degrees (R81). -/
theorem quadrantCode_toNat (d : Degree) (h : d.toNat < 360) : (quadrantCode d).toNat = d.toNat / 90 := by
  unfold quadrantCode
  split_ifs <;> simp <;> omega

theorem quadrantCode_of_inQ0 (d : Degree) (h : inQ0 d = true) : quadrantCode d = 0#2 := by
  simp [inQ0] at h
  simp [quadrantCode, h]

theorem quadrantCode_of_inQ1 (d : Degree) (h : inQ1 d = true) : quadrantCode d = 1#2 := by
  simp [inQ1] at h
  simp [quadrantCode, h.2, Nat.not_lt.mpr h.1]

theorem quadrantCode_of_inQ2 (d : Degree) (h : inQ2 d = true) : quadrantCode d = 2#2 := by
  simp [inQ2] at h
  have h1 : ¬ d.toNat < 90 := by omega
  simp [quadrantCode, h.2, h1, Nat.not_lt.mpr h.1]

theorem quadrantCode_of_inQ3 (d : Degree) (h : inQ3 d = true) : quadrantCode d = 3#2 := by
  simp [inQ3] at h
  have h1 : ¬ d.toNat < 90 := by omega
  have h2 : ¬ d.toNat < 180 := by omega
  simp [quadrantCode, h1, h2, Nat.not_lt.mpr h.1]

/-- Every normalised degree lies in one of the four quadrants (R60, R81). -/
theorem quadrant_cases (d : Degree) (h : d.toNat < 360) :
    inQ0 d = true ∨ inQ1 d = true ∨ inQ2 d = true ∨ inQ3 d = true := by
  simp only [inQ0, inQ1, inQ2, inQ3, Bool.and_eq_true, decide_eq_true_eq]
  omega

end Sys2Proof
end

