-- ==== Sys2Proof/Laws/History.lean ====
section
/-! SUPPORT. The readings of the ghost history: over two parts, and over each kind of entry. -/

namespace Sys2Proof.Machine

section
variable (h k : List Entry) (v : Option Amp)

@[simp] theorem ticks_nil : ticks [] = 0 := rfl
@[simp] theorem ticks_append : ticks (h ++ k) = ticks h + ticks k := by simp [ticks]
@[simp] theorem ticks_cons_tick : ticks (.tick :: h) = ticks h + 1 := by simp [ticks]
@[simp] theorem ticks_cons_ack : ticks (.ack :: h) = ticks h := by simp [ticks]
@[simp] theorem ticks_cons_wr : ticks (.wr v :: h) = ticks h := by simp [ticks]
@[simp] theorem ticks_cons_latch : ticks (.latch v :: h) = ticks h := by simp [ticks]

@[simp] theorem acks_nil : acks [] = 0 := rfl
@[simp] theorem acks_append : acks (h ++ k) = acks h + acks k := by simp [acks]
@[simp] theorem acks_cons_tick : acks (.tick :: h) = acks h := by simp [acks]
@[simp] theorem acks_cons_ack : acks (.ack :: h) = acks h + 1 := by simp [acks]
@[simp] theorem acks_cons_wr : acks (.wr v :: h) = acks h := by simp [acks]
@[simp] theorem acks_cons_latch : acks (.latch v :: h) = acks h := by simp [acks]

@[simp] theorem writes_nil : writes [] = [] := rfl
@[simp] theorem writes_append : writes (h ++ k) = writes h ++ writes k := by simp [writes]
@[simp] theorem writes_cons_tick : writes (.tick :: h) = writes h := by simp [writes]
@[simp] theorem writes_cons_ack : writes (.ack :: h) = writes h := by simp [writes]
@[simp] theorem writes_cons_wr : writes (.wr v :: h) = v :: writes h := by simp [writes]
@[simp] theorem writes_cons_latch : writes (.latch v :: h) = writes h := by simp [writes]

@[simp] theorem latches_nil : latches [] = [] := rfl
@[simp] theorem latches_append : latches (h ++ k) = latches h ++ latches k := by simp [latches]
@[simp] theorem latches_cons_tick : latches (.tick :: h) = latches h := by simp [latches]
@[simp] theorem latches_cons_ack : latches (.ack :: h) = latches h := by simp [latches]
@[simp] theorem latches_cons_wr : latches (.wr v :: h) = latches h := by simp [latches]
@[simp] theorem latches_cons_latch : latches (.latch v :: h) = v :: latches h := by simp [latches]

end

end Sys2Proof.Machine
end

