-- ==== Sys2Proof/Laws/PerInstr.lean ====
section
/-! SUPPORT. One lemma for each constructor of Instr, for statements about instructions as text. -/

/-- The operation's encoding lies in the format the table of spec/30_encoding.md rule R59 gives it. -/
def Sys2Proof.Laws.SelectorFormat.Statement (i : Sys2Proof.Instr) : Prop :=
  (Sys2Proof.encode i).format = i.format

namespace Sys2Proof.Laws.SelectorFormat

theorem reset : Statement .reset := rfl
theorem tick : Statement .tick := rfl
theorem run : Statement .run := rfl
theorem enter : Statement .enter := rfl
theorem ack : Statement .ack := rfl
theorem adv : Statement .adv := rfl
theorem lkp : Statement .lkp := rfl
theorem wr : Statement .wr := rfl
theorem ret : Statement .ret := rfl
theorem q0 (d : Degree) : Statement (.q0 d) := rfl
theorem q1 (d : Degree) : Statement (.q1 d) := rfl
theorem q2 (d : Degree) : Statement (.q2 d) := rfl
theorem q3 (d : Degree) : Statement (.q3 d) := rfl
theorem sample (index : RomAddr) : Statement (.sample index) := rfl
theorem norm (degIn : DegPort) : Statement (.norm degIn) := rfl
theorem lookup (degIn : DegPort) : Statement (.lookup degIn) := rfl
theorem advance : Statement .advance := rfl
theorem curdeg : Statement .curdeg := rfl

end Sys2Proof.Laws.SelectorFormat
end

