-- ==== Sys2Proof/Laws/Resolver.lean ====
section
/-! SUPPORT. One lemma for each function of the ROM and of the resolver that says what it answers. -/

namespace Sys2Proof.Machine

@[simp] theorem romWord_toNat (c : Config) (i : Fin 91) : (romWord c i).toNat = (c.table i).val := by
  have h := (c.table i).isLt
  simp only [romWord, BitVec.toNat_ofNat]
  omega

theorem romWord_le (c : Config) (i : Fin 91) : (romWord c i).toNat ≤ 4096 := by
  have h := (c.table i).isLt
  rw [romWord_toNat]
  omega

theorem sample_of_lt (c : Config) (a : RomAddr) (h : a.toNat < 91) :
    sample c a = .ok (romWord c ⟨a.toNat, h⟩) := by
  simp [sample, memRead, h]

theorem sample_of_ge (c : Config) (a : RomAddr) (h : 91 ≤ a.toNat) :
    sample c a = .error .romRange := by
  simp [sample, memRead, Nat.not_lt.mpr h]

/-- Everything SAMPLE can do: a table word, or the one refusal of R70. -/
theorem sample_ok_iff (c : Config) (a : RomAddr) (v : Amp) :
    sample c a = .ok v ↔ ∃ h : a.toNat < 91, v = romWord c ⟨a.toNat, h⟩ := by
  by_cases h : a.toNat < 91
  · simp [sample_of_lt c a h, h, eq_comm]
  · simp [sample_of_ge c a (by omega), h]

@[simp] theorem norm_toNat (a : Int) : (norm a).toNat = (a % 360).toNat := by
  simp only [norm, BitVec.toNat_ofNat]
  omega

theorem norm_lt (a : Int) : (norm a).toNat < 360 := by
  rw [norm_toNat]
  omega

theorem mirror_toNat (v : Amp) (h : v.toNat ≤ 4096) : (mirror v).toNat = 4096 - v.toNat := by
  simp only [mirror, BitVec.toNat_sub, BitVec.toNat_ofNat]
  omega

theorem indexQ0_toNat (d : Degree) (h : inQ0 d = true) : (indexQ0 d).toNat = d.toNat := by
  simp [inQ0] at h
  simp only [indexQ0, BitVec.toNat_setWidth]
  omega

theorem indexQ1_toNat (d : Degree) (h : inQ1 d = true) : (indexQ1 d).toNat = 180 - d.toNat := by
  simp [inQ1] at h
  simp only [indexQ1, BitVec.toNat_setWidth, BitVec.toNat_sub, BitVec.toNat_ofNat]
  omega

theorem indexQ2_toNat (d : Degree) (h : inQ2 d = true) : (indexQ2 d).toNat = d.toNat - 180 := by
  simp [inQ2] at h
  simp only [indexQ2, BitVec.toNat_setWidth, BitVec.toNat_sub, BitVec.toNat_ofNat]
  omega

theorem indexQ3_toNat (d : Degree) (h : inQ3 d = true) : (indexQ3 d).toNat = 360 - d.toNat := by
  simp [inQ3] at h
  simp only [indexQ3, BitVec.toNat_setWidth, BitVec.toNat_sub, BitVec.toNat_ofNat]
  omega

theorem wordAt_le (c : Config) (i : Nat) : wordAt c i ≤ 4096 := by
  unfold wordAt
  split
  · have := (c.table ⟨i, by assumption⟩).isLt
    omega
  · omega

/-- A ROM read at an index in range answers the table word there. -/
theorem sample_wordAt (c : Config) (a : RomAddr) (h : a.toNat < 91) :
    ∃ v, sample c a = .ok v ∧ v.toNat = wordAt c a.toNat := by
  refine ⟨_, sample_of_lt c a h, ?_⟩
  simp [wordAt, h]

theorem quadrant0_ok (c : Config) (d : Degree) (h : inQ0 d = true) :
    ∃ v, quadrant0 c d = .ok v ∧ v.toNat = wordAt c d.toNat := by
  have hi := indexQ0_toNat d h
  have hd : d.toNat < 90 := by simpa [inQ0] using h
  obtain ⟨v, hv, hn⟩ := sample_wordAt c (indexQ0 d) (by omega)
  exact ⟨v, by simp [quadrant0, h, hv], by rw [hn, hi]⟩

theorem quadrant1_ok (c : Config) (d : Degree) (h : inQ1 d = true) :
    ∃ v, quadrant1 c d = .ok v ∧ v.toNat = 4096 - wordAt c (180 - d.toNat) := by
  have hi := indexQ1_toNat d h
  have hd : 90 ≤ d.toNat ∧ d.toNat < 180 := by simpa [inQ1] using h
  obtain ⟨v, hv, hn⟩ := sample_wordAt c (indexQ1 d) (by omega)
  have hle : v.toNat ≤ 4096 := hn ▸ wordAt_le c _
  exact ⟨mirror v, by simp [quadrant1, h, hv, Except.map], by rw [mirror_toNat v hle, hn, hi]⟩

theorem quadrant2_ok (c : Config) (d : Degree) (h : inQ2 d = true) :
    ∃ v, quadrant2 c d = .ok v ∧ v.toNat = 4096 - wordAt c (d.toNat - 180) := by
  have hi := indexQ2_toNat d h
  have hd : 180 ≤ d.toNat ∧ d.toNat < 270 := by simpa [inQ2] using h
  obtain ⟨v, hv, hn⟩ := sample_wordAt c (indexQ2 d) (by omega)
  have hle : v.toNat ≤ 4096 := hn ▸ wordAt_le c _
  exact ⟨mirror v, by simp [quadrant2, h, hv, Except.map], by rw [mirror_toNat v hle, hn, hi]⟩

theorem quadrant3_ok (c : Config) (d : Degree) (h : inQ3 d = true) :
    ∃ v, quadrant3 c d = .ok v ∧ v.toNat = wordAt c (360 - d.toNat) := by
  have hi := indexQ3_toNat d h
  have hd : 270 ≤ d.toNat ∧ d.toNat < 360 := by simpa [inQ3] using h
  obtain ⟨v, hv, hn⟩ := sample_wordAt c (indexQ3 d) (by omega)
  exact ⟨v, by simp [quadrant3, h, hv], by rw [hn, hi]⟩

theorem dispatchQuadrant_of_inQ0 (c : Config) (d : Degree) (h : inQ0 d = true) :
    dispatchQuadrant c d = quadrant0 c d := by
  simp [dispatchQuadrant, quadrantCode_of_inQ0 d h]

theorem dispatchQuadrant_of_inQ1 (c : Config) (d : Degree) (h : inQ1 d = true) :
    dispatchQuadrant c d = quadrant1 c d := by
  simp [dispatchQuadrant, quadrantCode_of_inQ1 d h]

theorem dispatchQuadrant_of_inQ2 (c : Config) (d : Degree) (h : inQ2 d = true) :
    dispatchQuadrant c d = quadrant2 c d := by
  simp [dispatchQuadrant, quadrantCode_of_inQ2 d h]

theorem dispatchQuadrant_of_inQ3 (c : Config) (d : Degree) (h : inQ3 d = true) :
    dispatchQuadrant c d = quadrant3 c d := by
  simp [dispatchQuadrant, quadrantCode_of_inQ3 d h]

/-- Everything `showResult` can do. -/
theorem showResult_next_iff (r : Except Refusal Readout) (s t : State) :
    showResult r s = .next t ↔ ∃ v, r = .ok v ∧ t = { s with readout := some v } := by
  cases r <;> simp [showResult, eq_comm]

theorem portInteger_degOperand (d : WideDegree) : portInteger (degOperand d) = (d.toNat : Int) := by
  have h := d.isLt
  simp only [portInteger, degOperand]
  rw [BitVec.toInt_eq_toNat_cond]
  simp only [BitVec.toNat_setWidth]
  split <;> omega

end Sys2Proof.Machine
end

