-- ==== Sys2Proof/Laws/Ports.lean ====
section
/-! SUPPORT. What the outputs show, one lemma for each output that can be looked at, and when the strobes are pulsed. -/

namespace Sys2Proof.Machine

section
variable (c : Config) (s : State)

@[simp] theorem shownWith_amp (v : Amp) :
    shownWith c { s with readout := some (.amp v) } = some (.amp v) := rfl

@[simp] theorem shownWith_normaliser (degIn : DegPort) :
    shownWith c { s with readout := some (.normaliser degIn) } = some (.degree (norm (portInteger degIn))) := rfl

@[simp] theorem shownWith_adder :
    shownWith c { s with readout := some .adder } = some (.angle (advance c s.angle)) := rfl

@[simp] theorem shownWith_deg :
    shownWith c { s with readout := some .deg } = some (.wideDegree (curdeg s.angle)) := rfl

theorem tickAck_iff : (portsDuringRun c s).tickAck = true ↔ s.phase = 1#3 := by
  simp [portsDuringRun, ← BitVec.toNat_inj]

theorem adv_iff : (portsDuringRun c s).adv = true ↔ s.phase = 2#3 := by
  simp [portsDuringRun, ← BitVec.toNat_inj]

theorem dacWr_iff : (portsDuringRun c s).dacWr = true ↔ s.phase = 4#3 := by
  simp [portsDuringRun, ← BitVec.toNat_inj]

end

/-- A quadrant operation, LOOKUP or SAMPLE that answers an amplitude shows it and changes nothing else. -/
theorem showResult_amp (r : Except Refusal Amp) (v : Amp) (s : State) (h : r = .ok v) :
    showResult (r.map .amp) s = .next { s with readout := some (.amp v) } := by
  subst h
  rfl

end Sys2Proof.Machine
end

