-- ==== Sys2Proof/Laws/Sine.lean ====
section
/-! SUPPORT. Integer bounds of the sine at whole degrees, for the claim that the default table is the rounded sine
(spec/40_wavetable_rom.md rule R71). -/

namespace Sys2Proof.Machine

open Real

/-- Half a degree in radians, from below. -/
theorem half_degree_lo : (0.00872664625997 : ℝ) < π / 360 := by have := Real.pi_gt_d20; norm_num at *; linarith
/-- Half a degree in radians, from above. -/
theorem half_degree_hi : π / 360 < (0.00872664625998 : ℝ) := by have := Real.pi_lt_d20; norm_num at *; linarith

/-- Sine and cosine of half a degree, from the Taylor bounds of Mathlib. -/
theorem half_degree_bounds : |sin (π/360) - 0.0087265354983| ≤ 0.00000000031 ∧ |cos (π/360) - 0.9999619228| ≤ 0.00000000062 := by
  have h1 := half_degree_lo
  have h2 := half_degree_hi
  set x := π / 360 with hx
  have hx1 : |x| ≤ 1 := by rw [abs_le]; constructor <;> linarith
  have hs := Real.sin_bound hx1
  have hc := Real.cos_bound hx1
  have hax : |x| = x := abs_of_pos (by linarith)
  rw [hax] at hs hc
  have h4 : x^4 ≤ (0.00872664625998:ℝ)^4 := pow_le_pow_left₀ (by linarith) h2.le 4
  have h3 : x^3 ≤ (0.00872664625998:ℝ)^3 := pow_le_pow_left₀ (by linarith) h2.le 3
  have h3' : (0.00872664625997:ℝ)^3 ≤ x^3 := pow_le_pow_left₀ (by norm_num) h1.le 3
  have h22 : x^2 ≤ (0.00872664625998:ℝ)^2 := pow_le_pow_left₀ (by linarith) h2.le 2
  have h22' : (0.00872664625997:ℝ)^2 ≤ x^2 := pow_le_pow_left₀ (by norm_num) h1.le 2
  have h5 : 0 ≤ x^5 := pow_nonneg (by linarith) 5
  have h5' : x^5 ≤ (0.00872664625998:ℝ)^5 := pow_le_pow_left₀ (by linarith) h2.le 5
  obtain ⟨a1, a2⟩ := abs_le.1 hs
  obtain ⟨b1, b2⟩ := abs_le.1 hc
  norm_num at *
  refine ⟨abs_le.2 ⟨?_, ?_⟩, abs_le.2 ⟨?_, ?_⟩⟩ <;> linarith

/-- Sine and cosine of one degree, scaled to integers. -/
theorem one_degree_bounds : |sin (π/180) * 10^12 - 17452406437| ≤ 700 ∧ |cos (π/180) * 10^12 - 999847695156| ≤ 700 := by
  obtain ⟨hs, hc⟩ := half_degree_bounds
  have e : π / 180 = 2 * (π / 360) := by ring
  rw [e, sin_two_mul, cos_two_mul']
  set s := sin (π/360)
  set c := cos (π/360)
  have hsc : s^2 + c^2 = 1 := sin_sq_add_cos_sq _
  obtain ⟨a1, a2⟩ := abs_le.1 hs
  obtain ⟨b1, b2⟩ := abs_le.1 hc
  have c2 : c^2 = 1 - s^2 := by linarith
  rw [c2]
  have s1 : (s - 0.0087265354983) * (s - 0.0087265354983) ≤ 0.00000000031 * 0.00000000031 := by nlinarith
  have s0 : 0 ≤ (s - 0.0087265354983) * (s - 0.0087265354983) := mul_self_nonneg _
  have p : |(s - 0.0087265354983) * (c - 0.9999619228)| ≤ 0.00000000031 * 0.00000000062 := by
    rw [abs_mul]; exact mul_le_mul hs hc (abs_nonneg _) (by norm_num)
  obtain ⟨p1, p2⟩ := abs_le.1 p
  norm_num at *
  refine ⟨abs_le.2 ⟨?_, ?_⟩, abs_le.2 ⟨?_, ?_⟩⟩ <;> nlinarith

/-- Sine and cosine of `n` degrees, scaled by 10^12, by the addition formulas over the integers. -/
def scaledSinCos : ℕ → ℤ × ℤ
  | 0 => (0, 10^12)
  | n+1 => (((scaledSinCos n).1 * 999847695156 + (scaledSinCos n).2 * 17452406437) / 10^12, ((scaledSinCos n).2 * 999847695156 - (scaledSinCos n).1 * 17452406437) / 10^12)

/-- A bound on the error of `scaledSinCos`. -/
def scaledError : ℕ → ℤ
  | 0 => 0
  | n+1 => scaledError n * 1017300101593 / 10^12 + 1403

/-- The bound is not negative. -/
theorem scaledError_nonneg (n) : 0 ≤ scaledError n := by
  induction n with
  | zero => simp [scaledError]
  | succ n ih => simp only [scaledError]; positivity

/-- An integer quotient is within 1 of the real one. -/
theorem ediv_close (a : ℤ) : |(a:ℝ) / 10^12 - ((a / 10^12 : ℤ) : ℝ)| ≤ 1 := by
  have h1 := Int.emod_nonneg a (show (10^12:ℤ) ≠ 0 by norm_num)
  have h2 := Int.emod_lt_of_pos a (show (0:ℤ) < 10^12 by norm_num)
  have h3 := Int.emod_add_mul_ediv a (10^12)
  have h3' : ((a % 10^12 : ℤ) : ℝ) + 10^12 * ((a / 10^12 : ℤ):ℝ) = a := by exact_mod_cast h3
  have h1' : (0:ℝ) ≤ ((a % 10^12 : ℤ) : ℝ) := by exact_mod_cast h1
  have h2' : ((a % 10^12 : ℤ) : ℝ) < 10^12 := by exact_mod_cast h2
  generalize ((a % 10^12 : ℤ) : ℝ) = r at *
  generalize ((a / 10^12 : ℤ) : ℝ) = q at *
  rw [← h3', abs_le]
  constructor <;> linarith

/-- `scaledSinCos n` is within `scaledError n` of the sine and the cosine of `n` degrees. -/
theorem sin_cos_degrees_bounds (n : ℕ) : |sin (n * (π/180)) * 10^12 - ((scaledSinCos n).1:ℝ)| ≤ (scaledError n:ℝ) ∧ |cos (n * (π/180)) * 10^12 - ((scaledSinCos n).2:ℝ)| ≤ (scaledError n:ℝ) := by
  induction n with
  | zero => constructor <;> norm_num [scaledSinCos, scaledError]
  | succ n ih =>
    obtain ⟨hs, hc⟩ := ih
    obtain ⟨ds, dc⟩ := one_degree_bounds
    have e : ((n+1 : ℕ):ℝ) * (π/180) = n * (π/180) + π/180 := by push_cast; ring
    rw [e, sin_add, cos_add]
    have bs := abs_sin_le_one (n * (π/180))
    have bc := abs_cos_le_one (n * (π/180))
    set s := sin (n * (π/180))
    set c := cos (n * (π/180))
    set S := sin (π/180)
    set C := cos (π/180)
    have q1 := ediv_close ((scaledSinCos n).1 * 999847695156 + (scaledSinCos n).2 * 17452406437)
    have q2 := ediv_close ((scaledSinCos n).2 * 999847695156 - (scaledSinCos n).1 * 17452406437)
    have q3 := ediv_close (scaledError n * 1017300101593)
    simp only [scaledSinCos, scaledError]
    push_cast at q1 q2 q3 ⊢
    set A : ℝ := ((scaledSinCos n).1 : ℝ)
    set B : ℝ := ((scaledSinCos n).2 : ℝ)
    set E : ℝ := (scaledError n : ℝ)
    have tt : ∀ d E k : ℝ, 0 ≤ k → |d| ≤ E → |d * k / 10^12| ≤ E * k / 10^12 := by
      intro d E k hk hd
      rw [abs_div, abs_mul, abs_of_nonneg hk, abs_of_pos (show (0:ℝ) < 10^12 by norm_num)]
      exact div_le_div_of_nonneg_right (mul_le_mul_of_nonneg_right hd hk) (by norm_num)
    have t1 := tt _ _ 999847695156 (by norm_num) hs
    have t2 := tt _ _ 17452406437 (by norm_num) hc
    have t1' := tt _ _ 999847695156 (by norm_num) hc
    have t2' := tt _ _ 17452406437 (by norm_num) hs
    have m : ∀ a b : ℝ, |a| ≤ 1 → |b| ≤ 700 → |a * b| ≤ 700 := by
      intro a b ha hb; rw [abs_mul]; nlinarith [abs_nonneg a, abs_nonneg b]
    have t3 := m _ _ bs dc
    have t4 := m _ _ bc ds
    have t5 := m _ _ bc dc
    have t6 := m _ _ bs ds
    rw [abs_le] at q1 q2 q3 t1 t2 t1' t2' t3 t4 t5 t6
    norm_num at q1 q2 q3 t1 t2 t1' t2' t3 t4 t5 t6 ⊢
    refine ⟨abs_le.2 ⟨?_, ?_⟩, abs_le.2 ⟨?_, ?_⟩⟩ <;> linarith [q1.1, q1.2, q2.1, q2.2, q3.1, q3.2, t1.1, t1.2, t2.1, t2.2, t3.1, t3.2, t4.1, t4.2, t1'.1, t1'.2, t2'.1, t2'.2, t5.1, t5.2, t6.1, t6.2]

end Sys2Proof.Machine
end

