-- ==== Sys2Proof/Laws/Step.lean ====
section
/-! SUPPORT. What an event does, once and for all, and how a run unfolds. -/

namespace Sys2Proof.Machine

section
variable (s : State)

@[simp] theorem nextEvent_cons (w : EvWord) (rest : List EvWord) (h : s.schedule = w :: rest) :
    nextEvent s = w := by simp [nextEvent, h]

theorem consumeEvent_cons (w : EvWord) (rest : List EvWord) (h : s.schedule = w :: rest) :
    consumeEvent s = { s with schedule := rest } := by simp [consumeEvent, h]

theorem consumeEvent_nil (h : s.schedule = []) :
    consumeEvent s = { s with envIndex := s.envIndex + 1 } := by simp [consumeEvent, h]

@[simp] theorem consumeEvent_angle : (consumeEvent s).angle = s.angle := by unfold consumeEvent; split <;> rfl
@[simp] theorem consumeEvent_phase : (consumeEvent s).phase = s.phase := by unfold consumeEvent; split <;> rfl
@[simp] theorem consumeEvent_amp : (consumeEvent s).amp = s.amp := by unfold consumeEvent; split <;> rfl
@[simp] theorem consumeEvent_tickFlag : (consumeEvent s).tickFlag = s.tickFlag := by
  unfold consumeEvent; split <;> rfl
@[simp] theorem consumeEvent_dhr : (consumeEvent s).dhr = s.dhr := by unfold consumeEvent; split <;> rfl
@[simp] theorem consumeEvent_dor : (consumeEvent s).dor = s.dor := by unfold consumeEvent; split <;> rfl
@[simp] theorem consumeEvent_history : (consumeEvent s).history = s.history := by
  unfold consumeEvent; split <;> rfl
@[simp] theorem consumeEvent_readout : (consumeEvent s).readout = s.readout := by
  unfold consumeEvent; split <;> rfl

end

/-- An event word means RESET, TICK or RUN and nothing else (R51, R60). -/
theorem decodeEvent_cases (w : EvWord) :
    (eventOf w = .reset ∧ decodeEvent w = .reset) ∨ (eventOf w = .tick ∧ decodeEvent w = .tick) ∨
    (eventOf w = .run ∧ decodeEvent w = .run) := by
  revert w
  decide

/-- Everything RUN can do: the micro-operation of each phase, or nothing on a reserved code (R118). -/
theorem execRunWith_cases (c : Config) (s : State) :
    (s.phase = 0 ∧ execRunWith c s = execEnterWith c s) ∨ (s.phase = 1 ∧ execRunWith c s = execAckWith c s) ∨
    (s.phase = 2 ∧ execRunWith c s = execAdvWith c s) ∨ (s.phase = 3 ∧ execRunWith c s = execLkpWith c s) ∨
    (s.phase = 4 ∧ execRunWith c s = execWrWith c s) ∨ (s.phase = 5 ∧ execRunWith c s = execRetWith c s) ∨
    (5 < s.phase.toNat ∧ execRunWith c s = .next s) := by
  have key : ∀ n, n < 8 → s.phase.toNat = n → s.phase = BitVec.ofNat 3 n := by
    intro n hn h
    rw [← BitVec.toNat_inj, BitVec.toNat_ofNat, Nat.mod_eq_of_lt (by simpa using hn), h]
  have hcases : s.phase.toNat = 0 ∨ s.phase.toNat = 1 ∨ s.phase.toNat = 2 ∨ s.phase.toNat = 3 ∨
      s.phase.toNat = 4 ∨ s.phase.toNat = 5 ∨ s.phase.toNat = 6 ∨ s.phase.toNat = 7 := by
    have := s.phase.isLt
    omega
  obtain h | h | h | h | h | h | h | h := hcases <;> unfold execRunWith <;> simp only [h]
  · exact .inl ⟨key 0 (by decide) h, trivial⟩
  · exact .inr (.inl ⟨key 1 (by decide) h, trivial⟩)
  · exact .inr (.inr (.inl ⟨key 2 (by decide) h, trivial⟩))
  · exact .inr (.inr (.inr (.inl ⟨key 3 (by decide) h, trivial⟩)))
  · exact .inr (.inr (.inr (.inr (.inl ⟨key 4 (by decide) h, trivial⟩))))
  · exact .inr (.inr (.inr (.inr (.inr (.inl ⟨key 5 (by decide) h, trivial⟩)))))
  · exact .inr (.inr (.inr (.inr (.inr (.inr ⟨by decide, trivial⟩)))))
  · exact .inr (.inr (.inr (.inr (.inr (.inr ⟨by decide, trivial⟩)))))

/-- Everything LKP can do when it answers a next state. -/
theorem execLkpWith_next (c : Config) (s t : State) (h : execLkpWith c s = .next t) :
    ∃ v, lookup c (s.angle.toNat / 1000 : Nat) = .ok v ∧ t = setPhase 4#3 (writeAmp v s) := by
  unfold execLkpWith at h
  rw [portInteger_degOperand, curdeg_toNat] at h
  split at h
  · exact ⟨_, ‹_›, by simpa using h.symm⟩
  · cases h

/-- Everything ENTER can do: the handler is entered, or there is no tick and nothing changes. -/
theorem execEnterWith_next (c : Config) (s t : State) (h : execEnterWith c s = .next t) :
    (s.tickFlag = true ∧ t = takeTick s) ∨ (s.tickFlag = false ∧ t = s) := by
  unfold execEnterWith tickPending at h
  cases hf : s.tickFlag <;> simp [hf] at h
  · exact .inr ⟨rfl, h.symm⟩
  · exact .inl ⟨rfl, h.symm⟩

/-- Everything RUN can do when it answers a next state (R118). -/
theorem execRunWith_next (c : Config) (s t : State) (h : execRunWith c s = .next t) :
    (s.phase = 0 ∧ s.tickFlag = true ∧ t = takeTick s) ∨ (s.phase = 0 ∧ s.tickFlag = false ∧ t = s) ∨
    (s.phase = 1 ∧ t = setPhase 2#3 (emit .ack (clearTickFlag s))) ∨
    (s.phase = 2 ∧ t = setPhase 3#3 (writeAngle (advance c s.angle) s)) ∨
    (s.phase = 3 ∧ ∃ v, lookup c (s.angle.toNat / 1000 : Nat) = .ok v ∧ t = setPhase 4#3 (writeAmp v s)) ∨
    (s.phase = 4 ∧ t = setPhase 5#3 (memWriteOut s.amp s)) ∨
    (s.phase = 5 ∧ t = returnFromTick s) ∨ (5 < s.phase.toNat ∧ t = s) := by
  obtain ⟨hp, hr⟩ | ⟨hp, hr⟩ | ⟨hp, hr⟩ | ⟨hp, hr⟩ | ⟨hp, hr⟩ | ⟨hp, hr⟩ | ⟨hp, hr⟩ :=
    execRunWith_cases c s <;> rw [hr] at h
  · obtain ⟨hf, ht⟩ | ⟨hf, ht⟩ := execEnterWith_next c s t h
    · exact .inl ⟨hp, hf, ht⟩
    · exact .inr (.inl ⟨hp, hf, ht⟩)
  · exact .inr (.inr (.inl ⟨hp, (Host.Outcome.next.inj h).symm⟩))
  · exact .inr (.inr (.inr (.inl ⟨hp, (Host.Outcome.next.inj h).symm⟩)))
  · exact .inr (.inr (.inr (.inr (.inl ⟨hp, execLkpWith_next c s t h⟩))))
  · exact .inr (.inr (.inr (.inr (.inr (.inl ⟨hp, (Host.Outcome.next.inj h).symm⟩)))))
  · exact .inr (.inr (.inr (.inr (.inr (.inr (.inl ⟨hp, (Host.Outcome.next.inj h).symm⟩))))))
  · exact .inr (.inr (.inr (.inr (.inr (.inr (.inr ⟨hp, (Host.Outcome.next.inj h).symm⟩))))))

/-- Everything a step can do when it answers a next state (R110). -/
theorem stepWith_next (c : Config) (s t : State) (h : stepWith c s = .next t) :
    (eventOf (nextEvent s) = .reset ∧ t = resetElements c (consumeEvent s)) ∨
    (eventOf (nextEvent s) = .tick ∧
      t = setTickFlag (emit (.latch s.dhr) (emit .tick (latchOutput (consumeEvent s))))) ∨
    (eventOf (nextEvent s) = .run ∧ execRunWith c (consumeEvent s) = .next t) := by
  unfold stepWith at h
  obtain ⟨he, hd⟩ | ⟨he, hd⟩ | ⟨he, hd⟩ := decodeEvent_cases (nextEvent s) <;> rw [hd] at h
  · exact .inl ⟨he, by simpa [execWith, execResetWith] using h.symm⟩
  · exact .inr (.inl ⟨he, by simpa [execWith, execTickWith] using h.symm⟩)
  · exact .inr (.inr ⟨he, h⟩)

/-- A scheduled RUN performs the driver's micro-operation. -/
theorem stepWith_scheduled_run (c : Config) (s : State) (rest : List EvWord) (h : s.schedule = 0b00#2 :: rest) :
    stepWith c s = execRunWith c { s with schedule := rest } := by
  simp [stepWith, nextEvent, consumeEvent, h, decodeEvent, execWith]

/-- A scheduled TICK is the environment's event. -/
theorem stepWith_scheduled_tick (c : Config) (s : State) (rest : List EvWord) (h : s.schedule = 0b01#2 :: rest) :
    stepWith c s = execTickWith c { s with schedule := rest } := by
  simp [stepWith, nextEvent, consumeEvent, h, decodeEvent, execWith]

/-- A scheduled RESET (canonical word) is the host's event. -/
theorem stepWith_scheduled_reset (c : Config) (s : State) (rest : List EvWord) (h : s.schedule = 0b10#2 :: rest) :
    stepWith c s = execResetWith c { s with schedule := rest } := by
  simp [stepWith, nextEvent, consumeEvent, h, decodeEvent, execWith]

@[simp] theorem runWith_zero (c : Config) (s : State) : runWith c 0 s = .next s := rfl

/-- A run's first step, then the rest. -/
theorem runWith_succ (c : Config) (n : Nat) (s t : State) (h : stepWith c s = .next t) :
    runWith c (n + 1) s = runWith c n t := by
  rw [runWith, h]

/-- A run that answers a next state has answered one at its first step. -/
theorem runWith_succ_next (c : Config) (n : Nat) (s t : State) (h : runWith c (n + 1) s = .next t) :
    ∃ u, stepWith c s = .next u ∧ runWith c n u = .next t := by
  rw [runWith] at h
  split at h
  · exact ⟨_, ‹_›, h⟩
  · cases h
  · cases h

/-- A run in two parts. -/
theorem runWith_add (c : Config) (m n : Nat) (s t : State) (h : runWith c m s = .next t) :
    runWith c (m + n) s = runWith c n t := by
  induction m generalizing s with
  | zero => simp only [runWith_zero, Host.Outcome.next.injEq] at h; simp [h]
  | succ m ih =>
    obtain ⟨u, hu, hrest⟩ := runWith_succ_next c m s t h
    rw [show m + 1 + n = m + n + 1 by omega, runWith_succ c _ s u hu]
    exact ih u hrest

/-- The host's run, one step at a time. -/
theorem core_run_succ (M : Host.Core) (k : Nat) (s : M.State) :
    M.run (k + 1) s = match M.step s with
      | .next t => M.run k t
      | .fault r => .fault r
      | .refused r => .refused r := rfl

/-- `runWith` is the host's run of the machine `coreWith c`. -/
theorem runWith_eq_core (c : Config) (n : Nat) (s : State) : runWith c n s = (coreWith c).run n s := by
  induction n generalizing s with
  | zero => rfl
  | succ n ih =>
    refine Eq.trans ?_ (core_run_succ (coreWith c) n s).symm
    have hstep : (coreWith c).step s = stepWith c s := rfl
    rw [runWith, hstep]
    cases stepWith c s with
    | next t => exact ih t
    | fault r => rfl
    | refused r => rfl

end Sys2Proof.Machine
end

