-- ==== Sys2Proof/Tests/Slice0.lean ====
section
/-! SUPPORT. Tests of the model and witnesses of the statements' hypotheses. Expected results are those of
spec/30_encoding.md (selector tables) and spec/95_test_vectors.md (section 2), not the model's own. -/

namespace Sys2Proof.Tests

open Sys2Proof Sys2Proof.Machine

/-- A state of 95_test_vectors.md, `(angle, phase, amp, tick_flag, dhr, dor)`, with nothing else in it. -/
def stateOf (angle phase : Nat) (amp : Option Nat) (flag : Bool) (dhr dor : Option Nat) : State where
  angle := BitVec.ofNat 19 angle
  phase := BitVec.ofNat 3 phase
  amp := amp.map (BitVec.ofNat 13)
  tickFlag := flag
  dhr := dhr.map (BitVec.ofNat 13)
  dor := dor.map (BitVec.ofNat 13)
  history := []
  schedule := []
  envIndex := 0
  readout := none

/-- The same state with a history. -/
def withHistory (s : State) (h : List Entry) : State := { s with history := h }

/-- A configuration with a step and an initial flag of its own. -/
def configOf (n : Fin 360000) (flag : Bool) : Config := { Config.device with step := n, initTickFlag := flag }

/-- What the output looked at shows after an operation. -/
def shownBy (o : Outcome) : Option PortValue :=
  match o with
  | .next t => shown t
  | .fault _ | .refused _ => none

/-- A number an amplitude port shows. -/
def ampShown (n : Nat) : Option PortValue := some (.amp (BitVec.ofNat 13 n))

/-! ## Decoding: words written out from R51 to R54 -/

theorem test_decode_reset : decode (.ev 0b10#2) = .ok .reset ∧ decode (.ev 0b11#2) = .ok .reset := by decide
theorem test_decode_tick : decode (.ev 0b01#2) = .ok .tick := by decide
theorem test_decode_run : decode (.ev 0b00#2) = .ok .run := by decide
theorem test_decode_enter : decode (.uop 0b000#3) = .ok .enter := by decide
theorem test_decode_ack : decode (.uop 0b001#3) = .ok .ack := by decide
theorem test_decode_adv : decode (.uop 0b010#3) = .ok .adv := by decide
theorem test_decode_lkp : decode (.uop 0b011#3) = .ok .lkp := by decide
theorem test_decode_wr : decode (.uop 0b100#3) = .ok .wr := by decide
theorem test_decode_ret : decode (.uop 0b101#3) = .ok .ret := by decide
theorem test_decode_q0 : decode (.qd 0b00#2 89#9) = .ok (.q0 89#9) := by decide
theorem test_decode_q1 : decode (.qd 0b01#2 90#9) = .ok (.q1 90#9) := by decide
theorem test_decode_q2 : decode (.qd 0b10#2 180#9) = .ok (.q2 180#9) := by decide
theorem test_decode_q3 : decode (.qd 0b11#2 270#9) = .ok (.q3 270#9) := by decide
theorem test_decode_sample : decode (.romPort 127#7) = .ok (.sample 127#7) := by decide
theorem test_decode_norm : decode (.normPort 0x80000000#32) = .ok (.norm 0x80000000#32) := by decide
theorem test_decode_lookup : decode (.lookupPort 135#32) = .ok (.lookup 135#32) := by decide
theorem test_decode_advance : decode .advancePort = .ok .advance := by decide
theorem test_decode_curdeg : decode .curdegPort = .ok .curdeg := by decide

/-- R56: the two reserved phase codes. -/
theorem test_decode_rejects_reserved_phase :
    decode (.uop 0b110#3) = .error .reservedPhase ∧ decode (.uop 0b111#3) = .error .reservedPhase := by decide

/-- R53, R81: a code that is not the degree's own, and degrees that are not normalised. -/
theorem test_decode_rejects_quadrant :
    decode (.qd 0b00#2 90#9) = .error .quadrantMismatch ∧ decode (.qd 0b11#2 360#9) = .error .notNormalised ∧
    decode (.qd 0b00#2 511#9) = .error .notNormalised := by decide

/-- The table words of R59 as the host numbers them (log entry 13). -/
theorem test_table_words :
    decodeTableWord 2 0 = some .run ∧ decodeTableWord 2 1 = some .tick ∧ decodeTableWord 2 2 = some .reset ∧
    decodeTableWord 3 0 = some .enter ∧ decodeTableWord 3 5 = some .ret ∧ decodeTableWord 3 6 = none ∧
    decodeTableWord 8 2 = some .reset ∧ decodeTableWord 8 4 = some .wr ∧ decodeTableWord 0 0 = none := by decide

/-! ## WellFormed refuses ill-formed terms -/

theorem test_wellFormed_refuses_q0 : WellFormed (.q0 90#9) = false := by decide
theorem test_wellFormed_refuses_q1 : WellFormed (.q1 89#9) = false ∧ WellFormed (.q1 180#9) = false := by decide
theorem test_wellFormed_refuses_q2 : WellFormed (.q2 179#9) = false ∧ WellFormed (.q2 270#9) = false := by decide
theorem test_wellFormed_refuses_q3 : WellFormed (.q3 269#9) = false ∧ WellFormed (.q3 360#9) = false := by decide

/-! ## The default table (95_test_vectors.md section 2.1) -/

theorem test_table_length : defaultWords.length = 91 := by decide
theorem test_table_sum : defaultWords.sum = 236726 := by decide
theorem test_table_increases : ∀ i : Fin 90, (defaultTable i.castSucc).val < (defaultTable i.succ).val := by decide
theorem test_table_one_word_above_4095 : ∀ i : Fin 91, 4095 < (defaultTable i).val ↔ i.val = 90 := by decide

/-! ## SAMPLE, NORM, Q0 to Q3, LOOKUP (sections 2.1 and 2.2) -/

theorem test_sample_words :
    shownBy (exec (.sample 45#7) State.reset) = ampShown 2896 ∧
    shownBy (exec (.sample 88#7) State.reset) = ampShown 4094 ∧
    shownBy (exec (.sample 90#7) State.reset) = ampShown 4096 := by decide
theorem test_sample_range : exec (.sample 91#7) State.reset = .refused .romRange := rfl
theorem test_norm_negative :
    shownBy (exec (.norm 0xFFFFFFFF#32) State.reset) = some (.degree 359#9) ∧
    shownBy (exec (.norm 0xFFFFFE98#32) State.reset) = some (.degree 0#9) := by decide
theorem test_norm_extremes :
    shownBy (exec (.norm 0x80000000#32) State.reset) = some (.degree 232#9) ∧
    shownBy (exec (.norm 0x7FFFFFFF#32) State.reset) = some (.degree 127#9) := by decide
theorem test_q0 : shownBy (exec (.q0 89#9) State.reset) = ampShown 4095 := by decide
theorem test_q1 : shownBy (exec (.q1 90#9) State.reset) = ampShown 0 := by decide
theorem test_q2 : shownBy (exec (.q2 180#9) State.reset) = ampShown 4096 := by decide
theorem test_q3 : shownBy (exec (.q3 270#9) State.reset) = ampShown 4096 := by decide
theorem test_lookup_quadrants :
    shownBy (exec (.lookup 45#32) State.reset) = ampShown 2896 ∧
    shownBy (exec (.lookup 135#32) State.reset) = ampShown 1200 ∧
    shownBy (exec (.lookup 225#32) State.reset) = ampShown 1200 ∧
    shownBy (exec (.lookup 315#32) State.reset) = ampShown 2896 := by decide
theorem test_lookup_wrapped :
    shownBy (exec (.lookup 1000000#32) State.reset) = ampShown 4034 ∧
    shownBy (exec (.lookup 0x80000000#32) State.reset) = ampShown 868 ∧
    shownBy (exec (.lookup 0x7FFFFFFF#32) State.reset) = ampShown 825 := by decide

/-! ## ADVANCE and CURDEG (section 2.3) -/

theorem test_advance_wraps_on_equality :
    advance (configOf 8 false) 359992#19 = 0#19 ∧ advance (configOf 8 false) 359991#19 = 359999#19 := by decide
theorem test_advance_steps :
    advance (configOf 359999 false) 359999#19 = 359998#19 ∧ advance (configOf 7000 false) 355000#19 = 2000#19 ∧
    advance (configOf 0 false) 359999#19 = 359999#19 := by decide
theorem test_advance_shows :
    shownBy (exec .advance (stateOf 359999 0 none false none none)) = some (.angle 7#19) := by decide
theorem test_curdeg_truncates :
    curdeg 999#19 = 0#10 ∧ curdeg 1000#19 = 1#10 ∧ curdeg 359999#19 = 359#10 := by decide
theorem test_curdeg_shows :
    shownBy (exec .curdeg (stateOf 135999 0 none false none none)) = some (.wideDegree 135#10) := by decide

/-! ## The events and the micro-operations (sections 2.4 and 2.5) -/

theorem test_run_enter :
    exec .run (stateOf 0 0 none true none none) = .next (stateOf 0 1 none true none none) := rfl
theorem test_run_without_step :
    exec .run (stateOf 0 0 none false none none) = .next (stateOf 0 0 none false none none) := rfl
theorem test_run_ack :
    exec .run (stateOf 0 1 none true none none) = .next (withHistory (stateOf 0 2 none false none none) [.ack]) := rfl
theorem test_run_adv :
    exec .run (stateOf 359992 2 (some 71) false (some 71) (some 71)) =
      .next (stateOf 0 3 (some 71) false (some 71) (some 71)) := rfl
theorem test_run_lkp :
    exec .run (stateOf 180000 3 none false none none) = .next (stateOf 180000 4 (some 4096) false none none) := rfl
theorem test_run_lkp_last_degree :
    exec .run (stateOf 359999 3 none false none none) = .next (stateOf 359999 4 (some 71) false none none) := rfl
theorem test_run_wr :
    exec .run (stateOf 180000 4 (some 4096) false (some 4025) (some 4025)) =
      .next (withHistory (stateOf 180000 5 (some 4096) false (some 4096) (some 4025)) [.wr (some 4096#13)]) := rfl
theorem test_run_ret :
    exec .run (stateOf 60000 5 (some 3547) true (some 3547) (some 2048)) =
      .next (stateOf 60000 0 (some 3547) true (some 3547) (some 2048)) := rfl
theorem test_run_reserved :
    exec .run (stateOf 8 6 none true none none) = .next (stateOf 8 6 none true none none) := rfl
theorem test_tick_latches_none :
    exec .tick (stateOf 0 0 none false none none) =
      .next (withHistory (stateOf 0 0 none true none none) [.tick, .latch none]) := rfl
theorem test_tick_mid_service :
    exec .tick (stateOf 30000 2 (some 2048) false (some 2048) (some 0)) =
      .next (withHistory (stateOf 30000 2 (some 2048) true (some 2048) (some 2048))
        [.tick, .latch (some 2048#13)]) := rfl
theorem test_reset_mid_service :
    exec .reset (withHistory (stateOf 8 3 none true (some 1) (some 2)) [.ack]) = .next State.reset := rfl
theorem test_reset_pending :
    execWith (configOf 8 true) .reset (stateOf 8 3 none false none none) =
      .next (stateOf 0 0 none true none none) := rfl

/-- R58: the encoding of program P1 of section 3, 22 words. -/
theorem test_schedule_words :
    scheduleWords [.reset, .frameTimes 3] =
      [0b10#2, 0b01#2, 0#2, 0#2, 0#2, 0#2, 0#2, 0#2] ++ [0b01#2, 0#2, 0#2, 0#2, 0#2, 0#2, 0#2] ++
      [0b01#2, 0#2, 0#2, 0#2, 0#2, 0#2, 0#2] := by decide

/-- A placed word is what the very next step runs. -/
theorem test_step_runs_placed_word :
    step (State.reset.withFetchWord 2 1) = exec .tick State.reset ∧
    step (State.reset.withFetchWord 3 2) = exec .adv { State.reset with phase := 2#3 } := ⟨rfl, rfl⟩

/-! ## Witnesses: the hypotheses of each statement can be met, at the ends of their ranges -/

/-- A state in the middle of an on-time run: the first service, between ACK and ADV. -/
def midRun : State :=
  { withHistory (stateOf 0 2 none false none none) [.tick, .latch none, .ack] with schedule := [0b00#2] }

theorem witness_EncodedOperationDecodesBack :
    WellFormed (.q0 89#9) = true ∧ WellFormed (.q1 90#9) = true ∧ WellFormed (.q1 179#9) = true ∧
    WellFormed (.q2 180#9) = true ∧ WellFormed (.q3 359#9) = true ∧ WellFormed (.sample 127#7) = true := by decide

theorem witness_DecodedSelectorIsCanonical :
    decode (.ev 0b11#2) = .ok .reset ∧ decode (.qd 0b11#2 359#9) = .ok (.q3 359#9) := by decide

theorem witness_EverySelectorDecodesAsR60Says :
    (359#9).toNat < 360 ∧ decode (.qd 0b11#2 359#9) = .ok (.q3 359#9) ∧ (0b11#2).toNat = (359#9).toNat / 90 := by decide

theorem witness_FetchedTableWordRunsNext :
    decodeTableWord 8 2 = some .reset ∧ Instr.format .reset = .ev ∧ decodeTableWord 3 5 = some .ret := by decide

theorem witness_StepRunsDecodedEvent_scheduled :
    midRun.schedule = 0b00#2 :: [] ∧ decode (.ev 0b00#2) = .ok .run := by decide

theorem witness_StepRunsDecodedEvent_free :
    State.reset.schedule = [] ∧ ∃ i, decode (.ev (Config.envEvent State.reset.envIndex)) = .ok i :=
  ⟨rfl, _, rfl⟩

theorem witness_RunPerformsSelectedMicroOperation :
    decode (.uop midRun.phase) = .ok .adv ∧ 5 < (stateOf 0 6 none false none none).phase.toNat ∧
    5 < (stateOf 0 7 none false none none).phase.toNat ∧
    State.reset.phase = 0#3 ∧ State.reset.tickFlag = false := by decide

theorem witness_StepIsTheEventRelation :
    stepWith Config.device midRun =
      .next { withHistory (stateOf 8 3 none false none none) [.tick, .latch none, .ack] with schedule := [] } := rfl

theorem witness_EnterTakesPendingTick :
    (stateOf 0 0 none true none none).tickFlag = true ∧ State.reset.phase = 0#3 ∧ State.reset.tickFlag = false := by
  decide

theorem witness_WrStoresAmplitudeUnchanged :
    (stateOf 180000 4 (some 4096) false none none).amp = some 4096#13 ∧
    (stateOf 0 4 (some 0) false none none).amp = some 0#13 := by decide

theorem witness_WrWithoutAmplitudeCopiesNone : (stateOf 0 4 none false none none).amp = none := by decide

theorem witness_OperationsLeaveModelFieldsAlone :
    execWith Config.device .ret State.reset = .next State.reset ∧ Instr.format .ret = .uop ∧
    execWith Config.device .tick State.reset =
      .next (withHistory (stateOf 0 0 none true none none) [.tick, .latch none]) ∧ Instr.format .tick = .ev := by
  exact ⟨rfl, rfl, rfl, rfl⟩

/-- Each element is changed by some operation that its clause names. -/
theorem witness_OnlyNamedOperationsWriteAnElement :
    (∃ t, execWith Config.device .adv midRun = .next t ∧ t.angle ≠ midRun.angle ∧ t.phase ≠ midRun.phase) ∧
    (∃ t, execWith Config.device .lkp midRun = .next t ∧ t.amp ≠ midRun.amp) ∧
    (∃ t, execWith Config.device .tick midRun = .next t ∧ t.tickFlag ≠ midRun.tickFlag ∧
      t.history ≠ midRun.history) ∧
    (∃ t, execWith Config.device .wr (stateOf 8 4 (some 0) false none none) = .next t ∧ t.dhr ≠ none) ∧
    (∃ t, execWith Config.device .tick (stateOf 8 0 (some 0) false (some 0) none) = .next t ∧ t.dor ≠ none) :=
  ⟨⟨_, rfl, by decide, by decide⟩, ⟨_, rfl, by decide⟩, ⟨_, rfl, by decide, by decide⟩, ⟨_, rfl, by decide⟩,
    ⟨_, rfl, by decide⟩⟩

theorem witness_PhaseMovesAlongTheSequence :
    ∃ t, stepWith Config.device { stateOf 0 0 none true none none with schedule := [0b00#2] } = .next t ∧
      isIdle (stateOf 0 0 none true none none) = true ∧ isServicing t = true := ⟨_, rfl, by decide, by decide⟩

theorem witness_SampleReadsTheRom : (90#7).toNat ≤ 90 ∧ 90 < (91#7).toNat ∧ 90 < (127#7).toNat := by decide

theorem witness_QuadrantOperationsFollowTheirFormulas :
    (89#9).toNat < 90 ∧ 90 ≤ (90#9).toNat ∧ (179#9).toNat < 180 ∧ 180 ≤ (180#9).toNat ∧ (269#9).toNat < 270 ∧
    270 ≤ (270#9).toNat ∧ (359#9).toNat < 360 := by decide

theorem witness_QuadrantOperationRefusesForeignDegree :
    90 ≤ (90#9).toNat ∧ ((89#9).toNat < 90 ∨ 180 ≤ (89#9).toNat) ∧ ((270#9).toNat < 180 ∨ 270 ≤ (270#9).toNat) ∧
    ((360#9).toNat < 270 ∨ 360 ≤ (360#9).toNat) := by decide

/-- Every quadrant operation is reached from the port, negative values included. -/
theorem witness_LookupIsNormThenQuadrantOperation :
    shownBy (exec (.norm 0xFFFFFFFF#32) State.reset) = some (.degree 359#9) ∧
    decode (.qd (quadrantCode 359#9) 359#9) = .ok (.q3 359#9) ∧
    shownBy (exec (.norm 90#32) State.reset) = some (.degree 90#9) ∧
    decode (.qd (quadrantCode 90#9) 90#9) = .ok (.q1 90#9) := by decide

theorem witness_LookupRangeAndReachability :
    (90#7).toNat ≤ 90 ∧ inQ0 89#9 = true ∧ inQ2 269#9 = true ∧ inQ1 90#9 = true ∧ inQ3 359#9 = true ∧
    lookup Config.device 180 = .ok 4096#13 ∧ lookup Config.device 90 = .ok 0#13 :=
  ⟨by decide, rfl, rfl, rfl, rfl, rfl, rfl⟩

/-- One pair of degrees for each clause of R89, at the ends of the clauses. -/
theorem witness_LookupSymmetries :
    lookup Config.device 89 = .ok 4095#13 ∧ lookup Config.device 91 = .ok 1#13 ∧
    lookup Config.device 0 = .ok 0#13 ∧ lookup Config.device 180 = .ok 4096#13 ∧
    lookup Config.device 179 = .ok 4025#13 ∧ lookup Config.device 359 = .ok 71#13 ∧
    lookup Config.device 269 = .ok 1#13 ∧
    lookup Config.device 90 = .ok 0#13 ∧ lookup Config.device 270 = .ok 4096#13 := ⟨rfl, rfl, rfl, rfl, rfl, rfl, rfl, rfl, rfl⟩

theorem witness_AdvanceIsAdditionModuloRevolution : (359999#19).toNat < 360000 := by decide

theorem witness_CurdegTruncatesToDegrees : (359999#19).toNat < 360000 := by decide

theorem witness_MicroOperationsUseTheDatapath :
    (∃ t u a, execWith Config.device .adv midRun = .next t ∧ execWith Config.device .advance midRun = .next u ∧
      shownWith Config.device u = some (.angle a)) ∧
    (∃ t u r d v, execWith Config.device .lkp midRun = .next t ∧ execWith Config.device .curdeg midRun = .next u ∧
      shownWith Config.device u = some (.wideDegree d) ∧
      execWith Config.device (.lookup (d.setWidth 32)) midRun = .next r ∧ shownWith Config.device r = some (.amp v)) :=
  ⟨⟨_, _, _, rfl, rfl, rfl⟩, ⟨_, _, _, _, _, rfl, rfl, rfl, rfl, rfl⟩⟩

theorem witness_AdvanceClosedForm :
    (359991#19).toNat < 360000 ∧ (359991#19).toNat + Config.device.step.val < 360000 := by decide

theorem witness_AngleSequencePeriod : 0 < Config.device.step.val ∧ (359999#19).toNat < 360000 := by decide

theorem witness_StepZeroNeverMovesTheAngle :
    (configOf 0 false).step.val = 0 ∧
    (∃ t, stepWith (configOf 0 false) { stateOf 0 2 none false none none with schedule := [0b00#2] } = .next t) ∧
    (∃ t, execWith (configOf 0 false) .run (stateOf 0 3 none false none none) = .next t) :=
  ⟨rfl, ⟨_, rfl⟩, ⟨_, rfl⟩⟩

theorem witness_ConfigurationRefusedExactlyOutsideConstraints :
    ∃ c, Config.ofRaw ⟨359999, List.replicate 91 4096, true⟩ = .ok c := ⟨_, rfl⟩

theorem test_configuration_refused :
    Config.ofRaw ⟨360000, List.replicate 91 0, true⟩ = .error .stepTooLarge ∧
    Config.ofRaw ⟨8, List.replicate 90 0, true⟩ = .error .tableDepth ∧
    Config.ofRaw ⟨8, List.replicate 91 4097, true⟩ = .error .tableWordTooLarge := ⟨rfl, rfl, rfl⟩

theorem witness_stateInv : StateInv midRun :=
  ⟨by decide, by decide, by decide, by decide, by decide, by decide, by decide, by decide⟩

theorem witness_StepKeepsStateInvariant :
    StateInv midRun ∧ (∃ t, stepWith Config.device midRun = .next t) ∧ ∃ t, step midRun = .next t :=
  ⟨witness_stateInv, ⟨_, rfl⟩, ⟨_, rfl⟩⟩

theorem witness_historyInv : HistoryInv Config.device midRun :=
  ⟨witness_stateInv, by decide, by decide, by decide, by decide, by decide, by decide, by decide, by decide⟩

theorem witness_StepKeepsHistoryInvariant :
    HistoryInv Config.device midRun ∧ ∃ t, stepWith Config.device midRun = .next t := ⟨witness_historyInv, ⟨_, rfl⟩⟩

theorem witness_onTimeInv : OnTimeInv Config.device midRun :=
  ⟨witness_historyInv, by decide, by decide, by decide⟩

theorem witness_OnTimeRunLatchesEveryWrite :
    Config.device.initTickFlag = false ∧ OnTimeInv Config.device midRun ∧ OnTimeFor Config.device 1 midRun ∧
    ∃ t, runWith Config.device 1 midRun = .next t :=
  ⟨rfl, witness_onTimeInv, ⟨fun h => absurd h (by decide), fun _ _ => trivial⟩, ⟨_, rfl⟩⟩

theorem witness_FramesProduceTheOutputSequence : Config.device.initTickFlag = false := rfl

theorem witness_ServiceIsOneAdvanceLookupWrite :
    (stateOf 0 0 none true none none).phase = 0#3 ∧ (stateOf 0 0 none true none none).tickFlag = true := by decide

theorem witness_ServiceReachesIdleUnderAnyTicks :
    isServicing (stateOf 0 1 none true none none) = true ∧
    (∀ w ∈ [0b01#2, 0b00#2, 0b00#2, 0b01#2, 0b00#2, 0b00#2, 0b00#2], w = 0b00#2 ∨ w = 0b01#2) ∧
    (stateOf 0 1 none true none none).phase.toNat +
      [0b01#2, 0b00#2, 0b00#2, 0b01#2, 0b00#2, 0b00#2, 0b00#2].count 0b00#2 ≤ 6 := by decide

theorem witness_MergedTicksAdvanceOnce : State.reset.phase = 0#3 := rfl

/-- The phases 2, 3 and 4 of R121 (a). -/
theorem witness_EarlyTickDropsASample :
    2 ≤ midRun.phase.toNat ∧ midRun.phase.toNat ≤ 4 ∧ midRun.tickFlag = false ∧ midRun.phase = 2#3 ∧
    2 ≤ (stateOf 8 3 none false none none).phase.toNat ∧ (stateOf 8 3 none false none none).phase ≠ 4#3 ∧
    (stateOf 8 4 (some 0) false none none).phase.toNat ≤ 4 ∧ (stateOf 8 4 (some 0) false none none).phase = 4#3 := by
  decide

theorem witness_FirstTicksAfterReset :
    (configOf 8 false).initTickFlag = false ∧ (configOf 8 true).initTickFlag = true := ⟨rfl, rfl⟩

/-- Each kind of port is pulsed by some RUN, and by another it is not. -/
theorem witness_PortsCarryTheMicroOperations :
    (portsDuringRun Config.device (stateOf 0 4 (some 0) false none none)).dacWr = true ∧
    (portsDuringRun Config.device (stateOf 0 1 none true none none)).tickAck = true ∧
    (portsDuringRun Config.device (stateOf 0 2 none false none none)).adv = true ∧
    (portsDuringRun Config.device (stateOf 0 3 none false none none)).dacWr = false ∧
    (portsDuringRun Config.device (stateOf 0 3 none false none none)).tickAck = false ∧
    (portsDuringRun Config.device (stateOf 0 3 none false none none)).adv = false ∧
    (stateOf 0 3 none false none none).phase = 3#3 ∧
    ∃ t, execWith Config.device .run (stateOf 0 3 none false none none) = .next t :=
  ⟨rfl, rfl, rfl, rfl, rfl, rfl, rfl, ⟨_, rfl⟩⟩

theorem witness_TwelveBitViewKeepsSmallSamples :
    (stateOf 0 0 none false none (some 4095)).dor = some 4095#13 ∧ (4095#13).toNat ≤ 4095 := by decide

theorem witness_FramesMayFollowFrames : (Line.frameTimes 2).allowedAt State.reset = true := by decide

end Sys2Proof.Tests
end

section
/-! The scope: the parameters of the block (spec/00_scope.md), which written values build a configuration, what the
12-bit device keeps, and which configuration the fixed names run. -/

namespace Sys2Proof

/-- The configuration built from written parameters that R6 accepts; `h` is R6 (a). -/
def RawConfig.toConfig (r : RawConfig) (h : r.step < 360000) : Config where
  step := ⟨r.step, h⟩
  table := tableOfWords r.table
  initTickFlag := r.initTickFlag
  dacNarrow := dacNarrowOpen
  dacNarrow_id := dacNarrowOpen_id

/-- Everything `Config.ofRaw` accepts, and what it then answers. -/
theorem Config.ofRaw_eq_ok_iff (r : RawConfig) (c : Config) :
    Config.ofRaw r = .ok c ↔
      ∃ h : r.step < 360000, r.table.length = 91 ∧ (∀ w ∈ r.table, w ≤ 4096) ∧ r.toConfig h = c := by
  by_cases hstep : r.step < 360000
  · by_cases hlen : r.table.length = 91
    · by_cases hwords : ∀ w ∈ r.table, w ≤ 4096
      · have hanswer : Config.ofRaw r = .ok (r.toConfig hstep) := by
          simpa [Config.ofRaw, RawConfig.toConfig, hstep, hlen] using hwords
        simpa [hanswer, hstep, hlen] using fun _ => hwords
      · simp [Config.ofRaw, hstep, hlen, hwords]
    · simp [Config.ofRaw, hstep, hlen]
  · simp [Config.ofRaw, hstep]

/-- On words within R6 (b) the clamp of R71 does not act: the table holds the words as written. -/
theorem getElem?_eq_tableOfWords (ws : List Nat) (hlen : ws.length = 91) (hwords : ∀ w ∈ ws, w ≤ 4096)
    (i : Fin 91) : ws[i.val]? = some (tableOfWords ws i).val := by
  have hi : i.val < ws.length := by omega
  have hword : ws[i.val] ≤ 4096 := hwords _ (List.getElem_mem hi)
  simp [tableOfWords, hi, hword]

/-- Settles O38, from what `Config.ofRaw` accepts and the table it builds. -/
theorem configurationRefusedExactlyOutsideConstraints :
    Obligations.ConfigurationRefusedExactlyOutsideConstraints := by
  unfold Obligations.ConfigurationRefusedExactlyOutsideConstraints
  simp only [Config.ofRaw_eq_ok_iff]
  refine ⟨fun r => ⟨?accepted, ?accepts⟩, ?carries⟩
  case accepted =>
    rintro ⟨_, hstep, hlen, hwords, _⟩
    exact ⟨hstep, hlen, hwords⟩
  case accepts =>
    rintro ⟨hstep, hlen, hwords⟩
    exact ⟨_, hstep, hlen, hwords, rfl⟩
  case carries =>
    rintro r _ ⟨hstep, hlen, hwords, rfl⟩
    exact ⟨rfl, rfl, getElem?_eq_tableOfWords r.table hlen hwords⟩

namespace Machine

@[simp] theorem dor12_eq_none_iff (c : Config) (s : State) : dor12 c s = none ↔ s.dor = none :=
  Option.map_eq_none_iff

theorem dor12_of_dor_eq_some (c : Config) (s : State) (v : Amp) (h : s.dor = some v) :
    dor12 c s = some (c.dacNarrow v) := by
  simp [dor12, h]

/-- Settles O51: the view is a map over `dor`, and R6 (c) makes the map the identity up to 4095. -/
theorem twelveBitViewKeepsSmallSamples : Obligations.TwelveBitViewKeepsSmallSamples := by
  unfold Obligations.TwelveBitViewKeepsSmallSamples
  intro c s
  refine ⟨dor12_eq_none_iff c s, fun v hdor hv => ?_⟩
  exact ⟨c.dacNarrow v, dor12_of_dor_eq_some c s v hdor, c.dacNarrow_id v hv⟩

/-- Each arm of the fixed dispatch is the arm of the parametric one, at the default configuration. -/
theorem exec_eq_execWith_device (i : Instr) (s : State) : exec i s = execWith Config.device i s := by
  cases i <;> rfl

theorem step_eq_stepWith_device (s : State) : step s = stepWith Config.device s :=
  exec_eq_execWith_device (decodeEvent (nextEvent s)) (consumeEvent s)

/-- Settles O8, from the two dispatchers' agreement; the rest are the defaults of R5. -/
theorem fixedMachineRunsTheDefaults : Obligations.FixedMachineRunsTheDefaults := by
  unfold Obligations.FixedMachineRunsTheDefaults
  exact ⟨exec_eq_execWith_device, step_eq_stepWith_device, rfl, rfl, rfl⟩

end Machine
end Sys2Proof
end

section
/-! The resolver's answer: LOOKUP never fails, and gives the document's amplitude (spec/41_quadrant_lookup.md rules
R82 to R86, R88). -/

namespace Sys2Proof.Machine

/-- The four formulas on the degree NORM answers; the floored modulo of `formulaAmp` is NORM's. -/
theorem formulaAmp_eq_norm (c : Config) (a : Int) :
    formulaAmp c a =
      if (norm a).toNat < 90 then wordAt c (norm a).toNat
      else if (norm a).toNat < 180 then 0x1000 - wordAt c (180 - (norm a).toNat)
      else if (norm a).toNat < 270 then 0x1000 - wordAt c ((norm a).toNat - 180)
      else wordAt c (360 - (norm a).toNat) := by
  rw [norm_toNat, ← Int.fmod_eq_emod_of_nonneg a (by decide)]
  rfl

theorem formulaAmp_le (c : Config) (a : Int) : formulaAmp c a ≤ 4096 := by
  rw [formulaAmp_eq_norm]
  split_ifs
  · exact wordAt_le c _
  · exact Nat.sub_le _ _
  · exact Nat.sub_le _ _
  · exact wordAt_le c _

/-- The quadrant operation that LOOKUP selects answers the formula of its quadrant. -/
theorem dispatchQuadrant_norm (c : Config) (a : Int) :
    ∃ v, dispatchQuadrant c (norm a) = .ok v ∧ v.toNat = formulaAmp c a := by
  rw [formulaAmp_eq_norm]
  obtain h | h | h | h := quadrant_cases (norm a) (norm_lt a)
  · rw [dispatchQuadrant_of_inQ0 c _ h, if_pos (by simpa [inQ0] using h)]
    exact quadrant0_ok c _ h
  · have hd : 90 ≤ (norm a).toNat ∧ (norm a).toNat < 180 := by simpa [inQ1] using h
    rw [dispatchQuadrant_of_inQ1 c _ h, if_neg (by omega), if_pos hd.2]
    exact quadrant1_ok c _ h
  · have hd : 180 ≤ (norm a).toNat ∧ (norm a).toNat < 270 := by simpa [inQ2] using h
    rw [dispatchQuadrant_of_inQ2 c _ h, if_neg (by omega), if_neg (by omega), if_pos hd.2]
    exact quadrant2_ok c _ h
  · have hd : 270 ≤ (norm a).toNat ∧ (norm a).toNat < 360 := by simpa [inQ3] using h
    rw [dispatchQuadrant_of_inQ3 c _ h, if_neg (by omega), if_neg (by omega), if_neg (by omega)]
    exact quadrant3_ok c _ h

/-- LOOKUP on every integer. -/
theorem lookup_eq_formulaAmp (c : Config) (a : Int) :
    lookup c a = .ok (BitVec.ofNat 13 (formulaAmp c a)) := by
  obtain ⟨v, hv, hn⟩ := dispatchQuadrant_norm c a
  rw [← hn, BitVec.ofNat_toNat, BitVec.setWidth_eq]
  exact hv

theorem lookup_eq_ok_iff (c : Config) (a : Int) (v : Amp) :
    lookup c a = .ok v ↔ v = BitVec.ofNat 13 (formulaAmp c a) := by
  rw [lookup_eq_formulaAmp, Except.ok.injEq, eq_comm]

theorem toNat_ofNat_formulaAmp (c : Config) (a : Int) :
    (BitVec.ofNat 13 (formulaAmp c a)).toNat = formulaAmp c a := by
  have h := formulaAmp_le c a
  rw [BitVec.toNat_ofNat, Nat.mod_eq_of_lt (by omega)]

/-- LKP always completes, with the amplitude of the whole degrees of `angle` (R114). -/
theorem execLkpWith_eq (c : Config) (s : State) :
    execLkpWith c s =
      .next (setPhase 4#3 (writeAmp (BitVec.ofNat 13 (formulaAmp c (s.angle.toNat / 1000 : Nat))) s)) := by
  rw [execLkpWith, portInteger_degOperand, curdeg_toNat, lookup_eq_formulaAmp]

/-- What LKP writes is an amplitude in range (R88). -/
theorem ampOk_formulaAmp (c : Config) (a : Int) : ampOk (some (BitVec.ofNat 13 (formulaAmp c a))) = true := by
  simp only [ampOk, toNat_ofNat_formulaAmp, decide_eq_true_eq]
  exact formulaAmp_le c a

end Sys2Proof.Machine
end

section
/-! The invariant of the state (spec/10_state.md rules R12, R13, R15): each event and each micro-operation keeps it. -/

namespace Sys2Proof.Machine

/-- Presenting an event touches only the fields that say which event comes next. -/
theorem consumeEvent_eq (s : State) : ∃ ws n, consumeEvent s = { s with schedule := ws, envIndex := n } := by
  unfold consumeEvent
  split
  · exact ⟨_, s.envIndex, rfl⟩
  · exact ⟨s.schedule, _, rfl⟩

theorem stateInv_resetElements (c : Config) (s : State) : StateInv (resetElements c s) where
  angle_lt := by simp
  phase_le := by simp
  amp_ok := rfl
  dhr_ok := rfl
  dor_ok := rfl
  history_ok := by simp
  amp_before_write := by simp
  pending_before_ack := by simp

namespace StateInv

variable {c : Config} {s : State}

theorem after_consumeEvent (h : StateInv s) : StateInv (consumeEvent s) := by
  obtain ⟨ws, n, hs⟩ := consumeEvent_eq s
  rw [hs]
  exact { h with }

/-- An entry that carries an amplitude in range may be recorded. -/
theorem after_emit (h : StateInv s) {e : Entry} (he : entryOk e = true) : StateInv (emit e s) :=
  { h with
    history_ok := by
      intro x hx
      obtain hx | rfl : x ∈ s.history ∨ x = e := by simpa using hx
      · exact h.history_ok x hx
      · exact he }

theorem after_tick (h : StateInv s) :
    StateInv (setTickFlag (emit (.latch s.dhr) (emit .tick (latchOutput s)))) :=
  have hlatched : StateInv (latchOutput s) := { h with dor_ok := h.dhr_ok }
  { (hlatched.after_emit (e := .tick) rfl).after_emit (e := .latch s.dhr) h.dhr_ok with
    pending_before_ack := fun _ => rfl }

theorem after_enter (h : StateInv s) (hflag : s.tickFlag = true) : StateInv (takeTick s) :=
  { h with
    phase_le := by simp
    amp_before_write := by simp
    pending_before_ack := fun _ => hflag }

theorem after_ack (h : StateInv s) : StateInv (setPhase 2#3 (emit .ack (clearTickFlag s))) :=
  { h with
    phase_le := by simp
    history_ok := (h.after_emit (e := .ack) rfl).history_ok
    amp_before_write := by simp
    pending_before_ack := by simp }

theorem after_adv (h : StateInv s) : StateInv (setPhase 3#3 (writeAngle (advance c s.angle) s)) :=
  { h with
    angle_lt := by
      simpa [advance_toNat] using advanceNat_lt _ _ h.angle_lt c.step.isLt
    phase_le := by simp
    amp_before_write := by simp
    pending_before_ack := by simp }

theorem after_lkp (h : StateInv s) (a : Int) :
    StateInv (setPhase 4#3 (writeAmp (BitVec.ofNat 13 (formulaAmp c a)) s)) :=
  { h with
    phase_le := by simp
    amp_ok := ampOk_formulaAmp c a
    amp_before_write := by simp
    pending_before_ack := by simp }

theorem after_wr (h : StateInv s) : StateInv (setPhase 5#3 (memWriteOut s.amp s)) :=
  { h with
    phase_le := by simp
    dhr_ok := h.amp_ok
    history_ok := (h.after_emit (e := .wr s.amp) h.amp_ok).history_ok
    amp_before_write := by simp
    pending_before_ack := by simp }

theorem after_ret (h : StateInv s) : StateInv (returnFromTick s) :=
  { h with
    phase_le := by simp
    amp_before_write := by simp
    pending_before_ack := by simp }

end StateInv

/-- The micro-operation that RUN performs on each phase keeps the invariant. -/
theorem stateInv_execRunWith {c : Config} {s t : State} (h : StateInv s) (hrun : execRunWith c s = .next t) :
    StateInv t := by
  obtain ⟨-, hflag, rfl⟩ | ⟨-, -, rfl⟩ | ⟨-, rfl⟩ | ⟨-, rfl⟩ | ⟨-, v, hv, rfl⟩ | ⟨-, rfl⟩ | ⟨-, rfl⟩ |
    ⟨-, rfl⟩ := execRunWith_next c s t hrun
  · exact h.after_enter hflag
  · exact h
  · exact h.after_ack
  · exact h.after_adv
  · obtain rfl := (lookup_eq_ok_iff c _ v).mp hv
    exact h.after_lkp _
  · exact h.after_wr
  · exact h.after_ret
  · exact h

theorem stateInv_stepWith {c : Config} {s t : State} (h : StateInv s) (hstep : stepWith c s = .next t) :
    StateInv t := by
  obtain ⟨-, rfl⟩ | ⟨-, rfl⟩ | ⟨-, hrun⟩ := stepWith_next c s t hstep
  · exact stateInv_resetElements c _
  · simpa using h.after_consumeEvent.after_tick
  · exact stateInv_execRunWith h.after_consumeEvent hrun

/-- Settles O40: the fixed machine is the parametric one at the defaults. -/
theorem stepKeepsStateInvariant : Obligations.StepKeepsStateInvariant := by
  unfold Obligations.StepKeepsStateInvariant
  refine ⟨fun c s t h hstep => stateInv_stepWith h hstep, fun s t h hstep => ?_⟩
  exact stateInv_stepWith h (step_eq_stepWith_device s ▸ hstep)

end Sys2Proof.Machine
end

section
/-! What the history says of the state (spec/10_state.md rules R17 to R19, spec/42_phase_accumulator.md rule R103,
spec/43_output_driver.md rules R121, R123): each event and each micro-operation keeps it. -/

namespace Sys2Proof.Machine

section
variable {s : State}

theorem advances_of_adv_next (hp : s.phase.toNat = 2) : advances s = acks s.history - 1 := by
  simp [advances, hp]

theorem advances_of_adv_not_next (hp : s.phase.toNat ≠ 2) : advances s = acks s.history := by
  simp [advances, hp]

theorem written_of_write_owed (hlo : 2 ≤ s.phase.toNat) (hhi : s.phase.toNat ≤ 4) :
    written s = acks s.history - 1 := by
  simp [written, hlo, hhi]

theorem written_of_no_write_owed (hp : s.phase.toNat < 2 ∨ 4 < s.phase.toNat) : written s = acks s.history := by
  have hno : ¬ (2 ≤ s.phase.toNat ∧ s.phase.toNat ≤ 4) := by omega
  simp [written, hno]

end

theorem advances_congr {s t : State} (hphase : t.phase = s.phase) (hacks : acks t.history = acks s.history) :
    advances t = advances s := by
  unfold advances
  rw [hphase, hacks]

theorem written_congr {s t : State} (hphase : t.phase = s.phase) (hacks : acks t.history = acks s.history) :
    written t = written s := by
  unfold written
  rw [hphase, hacks]

/-- One ADVANCE more in the closed form of R103. -/
theorem advanceNat_mul_mod (k n : Nat) (hn : n < 360000) :
    advanceNat (k * n % 360000) n = (k + 1) * n % 360000 := by
  rw [Nat.add_one_mul]
  unfold advanceNat
  split <;> omega

theorem historyInv_resetElements (c : Config) (s : State) : HistoryInv c (resetElements c s) where
  base := stateInv_resetElements c s
  service_acked := by simp
  angle_eq := by simp [advances_of_adv_not_next]
  writes_eq := by simp [written_of_no_write_owed]
  amp_eq := by simp
  dhr_eq := rfl
  dor_eq := rfl
  latch_each_tick := rfl
  ack_le_tick := by simp

namespace HistoryInv

variable {c : Config} {s : State}

theorem after_consumeEvent (h : HistoryInv c s) : HistoryInv c (consumeEvent s) := by
  obtain ⟨ws, n, hs⟩ := consumeEvent_eq s
  have hbase := h.base.after_consumeEvent
  rw [hs] at hbase ⊢
  exact { h with base := hbase }

theorem after_tick (h : HistoryInv c s) :
    HistoryInv c (setTickFlag (emit (.latch s.dhr) (emit .tick (latchOutput s)))) where
  base := h.base.after_tick
  service_acked := by simpa using h.service_acked
  angle_eq := by
    rw [advances_congr (s := s) (by simp) (by simp)]
    exact h.angle_eq
  writes_eq := by
    rw [written_congr (s := s) (by simp) (by simp)]
    simpa using h.writes_eq
  amp_eq := by simpa using h.amp_eq
  dhr_eq := by simpa using h.dhr_eq
  dor_eq := by simp
  latch_each_tick := by simpa using h.latch_each_tick
  ack_le_tick := by
    have hacked : acks s.history ≤ ticks s.history + c.initTickFlag.toNat :=
      (Nat.le_add_right _ _).trans h.ack_le_tick
    simpa [Nat.add_right_comm] using hacked

theorem after_enter (h : HistoryInv c s) (hp : s.phase = 0#3) (hflag : s.tickFlag = true) :
    HistoryInv c (takeTick s) :=
  { h with
    base := h.base.after_enter hflag
    service_acked := by simp
    angle_eq := by simpa [advances_of_adv_not_next, hp] using h.angle_eq
    writes_eq := by simpa [written_of_no_write_owed, hp] using h.writes_eq
    amp_eq := by simp }

/-- ACK opens a service: one more tick is acknowledged, whose advance and write are still to come. -/
theorem after_ack (h : HistoryInv c s) (hp : s.phase = 1#3) :
    HistoryInv c (setPhase 2#3 (emit .ack (clearTickFlag s))) where
  base := h.base.after_ack
  service_acked := by simp
  angle_eq := by simpa [advances_of_adv_not_next, advances_of_adv_next, hp] using h.angle_eq
  writes_eq := by simpa [written_of_no_write_owed, written_of_write_owed, hp] using h.writes_eq
  amp_eq := by simp
  dhr_eq := by simpa using h.dhr_eq
  dor_eq := by simpa using h.dor_eq
  latch_each_tick := by simpa using h.latch_each_tick
  ack_le_tick := by
    have hacked := h.ack_le_tick
    rw [h.base.pending_before_ack (by simp [hp])] at hacked
    simpa using hacked

/-- ADV runs the advance that the last ACK left to come. -/
theorem after_adv (h : HistoryInv c s) (hp : s.phase = 2#3) :
    HistoryInv c (setPhase 3#3 (writeAngle (advance c s.angle) s)) :=
  have hacked : 1 ≤ acks s.history := h.service_acked (by simp [hp]) (by simp [hp])
  { h with
    base := h.base.after_adv
    service_acked := fun _ _ => hacked
    angle_eq := by
      calc (advance c s.angle).toNat
          = advanceNat ((acks s.history - 1) * c.step.val % 360000) c.step.val := by
            rw [advance_toNat, h.angle_eq, advances_of_adv_next (by simp [hp])]
        _ = acks s.history * c.step.val % 360000 := by
            rw [advanceNat_mul_mod _ _ c.step.isLt, Nat.sub_add_cancel hacked]
        _ = _ := by simp [advances_of_adv_not_next]
    writes_eq := by simpa [written_of_write_owed, hp] using h.writes_eq
    amp_eq := by simp }

/-- LKP computes the output of the service under way. -/
theorem after_lkp (h : HistoryInv c s) (hp : s.phase = 3#3) :
    HistoryInv c (setPhase 4#3 (writeAmp (BitVec.ofNat 13 (formulaAmp c (s.angle.toNat / 1000 : Nat))) s)) :=
  have hangle : s.angle.toNat = acks s.history * c.step.val % 360000 := by
    simpa [advances_of_adv_not_next, hp] using h.angle_eq
  { h with
    base := h.base.after_lkp _
    service_acked := fun _ _ => h.service_acked (by simp [hp]) (by simp [hp])
    angle_eq := by simpa [advances_of_adv_not_next] using hangle
    writes_eq := by simpa [written_of_write_owed, hp] using h.writes_eq
    amp_eq := fun _ => by simp [outputAt, hangle] }

/-- WR makes the write that the last ACK left to come. -/
theorem after_wr (h : HistoryInv c s) (hp : s.phase = 4#3) :
    HistoryInv c (setPhase 5#3 (memWriteOut s.amp s)) where
  base := h.base.after_wr
  service_acked := by simp
  angle_eq := by simpa [advances_of_adv_not_next, hp] using h.angle_eq
  writes_eq := by
    have hacked : 1 ≤ acks s.history := h.service_acked (by simp [hp]) (by simp [hp])
    have hbefore : writes s.history = (List.range (acks s.history - 1)).map (fun k => some (outputAt c (k + 1))) := by
      simpa [written_of_write_owed, hp] using h.writes_eq
    have hamp : s.amp = some (outputAt c (acks s.history - 1 + 1)) := by
      rw [Nat.sub_add_cancel hacked]
      exact h.amp_eq (by simp [hp])
    calc writes (s.history ++ [.wr s.amp])
        = (List.range (acks s.history - 1)).map (fun k => some (outputAt c (k + 1))) ++
            [some (outputAt c (acks s.history - 1 + 1))] := by simp [hbefore, ← hamp]
      _ = (List.range (acks s.history - 1 + 1)).map (fun k => some (outputAt c (k + 1))) := by
            simp [List.range_succ]
      _ = _ := by rw [Nat.sub_add_cancel hacked]; simp [written_of_no_write_owed]
  amp_eq := by simp
  dhr_eq := by simp
  dor_eq := by simpa using h.dor_eq
  latch_each_tick := by simpa using h.latch_each_tick
  ack_le_tick := by simpa using h.ack_le_tick

theorem after_ret (h : HistoryInv c s) (hp : s.phase = 5#3) : HistoryInv c (returnFromTick s) :=
  { h with
    base := h.base.after_ret
    service_acked := by simp
    angle_eq := by simpa [advances_of_adv_not_next, hp] using h.angle_eq
    writes_eq := by simpa [written_of_no_write_owed, hp] using h.writes_eq
    amp_eq := by simp }

end HistoryInv

theorem historyInv_execRunWith {c : Config} {s t : State} (h : HistoryInv c s)
    (hrun : execRunWith c s = .next t) : HistoryInv c t := by
  obtain ⟨hp, hflag, rfl⟩ | ⟨-, -, rfl⟩ | ⟨hp, rfl⟩ | ⟨hp, rfl⟩ | ⟨hp, v, hv, rfl⟩ | ⟨hp, rfl⟩ | ⟨hp, rfl⟩ |
    ⟨-, rfl⟩ := execRunWith_next c s t hrun
  · exact h.after_enter hp hflag
  · exact h
  · exact h.after_ack hp
  · exact h.after_adv hp
  · obtain rfl := (lookup_eq_ok_iff c _ v).mp hv
    exact h.after_lkp hp
  · exact h.after_wr hp
  · exact h.after_ret hp
  · exact h

theorem historyInv_stepWith {c : Config} {s t : State} (h : HistoryInv c s) (hstep : stepWith c s = .next t) :
    HistoryInv c t := by
  obtain ⟨-, rfl⟩ | ⟨-, rfl⟩ | ⟨-, hrun⟩ := stepWith_next c s t hstep
  · exact historyInv_resetElements c _
  · simpa using h.after_consumeEvent.after_tick
  · exact historyInv_execRunWith h.after_consumeEvent hrun

/-- Settles O41: RESET starts the history afresh, TICK records what it latches, and RUN moves one service on. -/
theorem stepKeepsHistoryInvariant : Obligations.StepKeepsHistoryInvariant := by
  unfold Obligations.StepKeepsHistoryInvariant
  exact fun c s t h hstep => historyInv_stepWith h hstep

/-- Settles O39: the reset state is what RESET makes of itself. -/
theorem resetStateMeetsInvariants : Obligations.ResetStateMeetsInvariants := by
  unfold Obligations.ResetStateMeetsInvariants
  have hreset : ∀ c, HistoryInv c (State.resetWith c) := fun c => historyInv_resetElements c (State.resetWith c)
  refine ⟨(hreset Config.device).base, fun c => ⟨(hreset c).base, hreset c, fun hflag => ?_⟩⟩
  exact
    { base := hreset c
      tick_each_ack := by simp [State.resetWith, hflag]
      pending_early := by simp [State.resetWith]
      latches_eq := by simp [State.resetWith] }

end Sys2Proof.Machine
end

section
/-! Who writes an element, how `phase` moves, and what no step reads (spec/10_state.md rules R10, R13, R14, R18, R19;
spec/43_output_driver.md rule R122). -/

namespace Sys2Proof.Machine

/-- Everything a quadrant operation or a datapath function can do when it answers a next state (R91; log entry 6). -/
theorem execWith_datapath_next {c : Config} {i : Instr} {s t : State} (hformat : i.format = .qd ∨ i.format = .fn)
    (h : execWith c i s = .next t) : ∃ v, t = { s with readout := some v } := by
  cases i with
  | q0 | q1 | q2 | q3 | sample | lookup =>
    obtain ⟨v, -, ht⟩ := (showResult_next_iff _ s t).mp h
    exact ⟨v, ht⟩
  | norm | advance | curdeg => exact ⟨_, (Host.Outcome.next.inj h).symm⟩
  | reset | tick | run | enter | ack | adv | lkp | wr | ret => simp [Instr.format] at hformat

/-- Settles O21: each operation's next state is an update of the elements that R10 lists for it. -/
theorem onlyNamedOperationsWriteAnElement : Obligations.OnlyNamedOperationsWriteAnElement := by
  unfold Obligations.OnlyNamedOperationsWriteAnElement
  intro c i s t h
  cases i with
  | reset => simp
  | tick =>
    obtain rfl := Host.Outcome.next.inj h
    simp
  | run =>
    obtain ⟨hp, -, rfl⟩ | ⟨hp, -, rfl⟩ | ⟨hp, rfl⟩ | ⟨hp, rfl⟩ | ⟨hp, v, -, rfl⟩ | ⟨hp, rfl⟩ | ⟨hp, rfl⟩ |
      ⟨hp, rfl⟩ := execRunWith_next c s t h
    all_goals simp [hp]
  | enter =>
    obtain ⟨-, rfl⟩ | ⟨-, rfl⟩ := execEnterWith_next c s t h
    · simp [Instr.format]
    · simp
  | lkp =>
    obtain ⟨v, -, rfl⟩ := execLkpWith_next c s t h
    simp [Instr.format]
  | ack | adv | wr | ret =>
    obtain rfl := Host.Outcome.next.inj h
    simp [Instr.format]
  | q0 | q1 | q2 | q3 | sample | norm | lookup | advance | curdeg =>
    obtain ⟨v, rfl⟩ := execWith_datapath_next (by simp [Instr.format]) h
    simp

theorem isIdle_iff (s : State) : isIdle s = true ↔ s.phase = 0#3 := by
  simp [isIdle, ← BitVec.toNat_inj]

/-- A driver whose `phase` is 0 serves nothing (R14). -/
theorem phase_ne_zero_of_isServicing {s : State} (h : isServicing s = true) : s.phase ≠ 0#3 := by
  intro hp
  simp [isServicing, hp] at h

theorem execRunWith_phase {c : Config} {s t : State} (h : execRunWith c s = .next t) :
    t.phase = s.phase ∨ (s.phase.toNat ≤ 4 ∧ t.phase.toNat = s.phase.toNat + 1) ∨
      (s.phase = 5#3 ∧ t.phase = 0#3) := by
  obtain ⟨hp, -, rfl⟩ | ⟨hp, -, rfl⟩ | ⟨hp, rfl⟩ | ⟨hp, rfl⟩ | ⟨hp, v, -, rfl⟩ | ⟨hp, rfl⟩ | ⟨hp, rfl⟩ |
    ⟨hp, rfl⟩ := execRunWith_next c s t h
  all_goals simp [hp]

/-- From Idle, RUN does nothing or takes the pending tick (R111). -/
theorem execRunWith_of_idle {c : Config} {s t : State} (hidle : s.phase = 0#3) (h : execRunWith c s = .next t) :
    t = s ∨ (s.tickFlag = true ∧ t.phase = 1#3) := by
  have henter : execRunWith c s = execEnterWith c s := by simp [execRunWith, hidle]
  obtain ⟨hflag, rfl⟩ | ⟨-, rfl⟩ := execEnterWith_next c s t (henter ▸ h)
  · exact .inr ⟨hflag, rfl⟩
  · exact .inl rfl

/-- Settles O22: RESET clears `phase`, TICK leaves it, and RUN moves it along the sequence. -/
theorem phaseMovesAlongTheSequence : Obligations.PhaseMovesAlongTheSequence := by
  unfold Obligations.PhaseMovesAlongTheSequence
  intro c s t h
  rw [isIdle_iff]
  obtain ⟨he, rfl⟩ | ⟨-, rfl⟩ | ⟨-, hrun⟩ := stepWith_next c s t h
  · exact ⟨.inr (.inr (.inr ⟨he, rfl⟩)), fun _ hserving => absurd rfl (phase_ne_zero_of_isServicing hserving)⟩
  · refine ⟨.inl (by simp), fun hidle hserving => ?_⟩
    exact absurd (by simpa using hidle) (phase_ne_zero_of_isServicing hserving)
  · refine ⟨?_, fun hidle hserving => ?_⟩
    · have hmoves := execRunWith_phase hrun
      rw [consumeEvent_phase] at hmoves
      obtain hstay | hnext | hback := hmoves
      · exact .inl hstay
      · exact .inr (.inl hnext)
      · exact .inr (.inr (.inl hback))
    · obtain rfl | ⟨hflag, hone⟩ := execRunWith_of_idle (by simpa using hidle) hrun
      · exact absurd (by simpa using hidle) (phase_ne_zero_of_isServicing hserving)
      · exact ⟨by simpa using hflag, hone⟩

/-! The erasure of the unread elements passes through the presentation of an event and through each micro-operation. -/

section
variable (c : Config) (s : State)

theorem nextEvent_eraseUnread : nextEvent (eraseUnread s) = nextEvent s := rfl

theorem consumeEvent_eraseUnread : consumeEvent (eraseUnread s) = eraseUnread (consumeEvent s) := by
  obtain hnil | ⟨w, rest, hcons⟩ : s.schedule = [] ∨ ∃ w rest, s.schedule = w :: rest := by
    cases s.schedule <;> simp
  · rw [consumeEvent_nil s hnil, consumeEvent_nil (eraseUnread s) hnil]
    rfl
  · rw [consumeEvent_cons s w rest hcons, consumeEvent_cons (eraseUnread s) w rest hcons]
    rfl

theorem execEnterWith_eraseUnread :
    mapNext eraseUnread (execEnterWith c (eraseUnread s)) = mapNext eraseUnread (execEnterWith c s) := by
  have hflag : tickPending (eraseUnread s) = tickPending s := rfl
  unfold execEnterWith
  rw [hflag]
  split
  · rfl
  · rfl

theorem execLkpWith_eraseUnread :
    mapNext eraseUnread (execLkpWith c (eraseUnread s)) = mapNext eraseUnread (execLkpWith c s) := by
  rw [execLkpWith_eq, execLkpWith_eq]
  rfl

theorem execRunWith_eraseUnread :
    mapNext eraseUnread (execRunWith c (eraseUnread s)) = mapNext eraseUnread (execRunWith c s) := by
  have hphase : (eraseUnread s).phase = s.phase := rfl
  unfold execRunWith
  rw [hphase]
  split
  · exact execEnterWith_eraseUnread c s
  · rfl
  · rfl
  · exact execLkpWith_eraseUnread c s
  · rfl
  · rfl
  · rfl

end

/-- Settles O49: the same event is presented with or without the unread elements, and it does the same. -/
theorem unreadElementsDoNotInfluenceSteps : Obligations.UnreadElementsDoNotInfluenceSteps := by
  unfold Obligations.UnreadElementsDoNotInfluenceSteps
  intro c s
  rw [stepWith, stepWith, nextEvent_eraseUnread, consumeEvent_eraseUnread]
  obtain ⟨-, hevent⟩ | ⟨-, hevent⟩ | ⟨-, hevent⟩ := decodeEvent_cases (nextEvent s)
  · rw [hevent]
    rfl
  · rw [hevent]
    rfl
  · rw [hevent]
    exact (execRunWith_eraseUnread c (consumeEvent s)).symm

end Sys2Proof.Machine
end

section
/-! The decoder and its inverse: what each format's decoding answers, as an `↔` (spec/30_encoding.md rules R51 to R55,
R60). -/

namespace Sys2Proof

theorem phase_cases (p : Phase) :
    p = 0#3 ∨ p = 1#3 ∨ p = 2#3 ∨ p = 3#3 ∨ p = 4#3 ∨ p = 5#3 ∨ 5 < p.toNat := by
  revert p
  decide

/-- A `phase` code selects the one micro-operation whose selector it is (R52). -/
theorem decodePhase_eq_ok_iff (p : Phase) (i : Instr) :
    decodePhase p = .ok i ↔ i.format = .uop ∧ encode i = .uop p := by
  constructor
  · intro h
    obtain rfl | rfl | rfl | rfl | rfl | rfl | hp := phase_cases p
    case inr.inr.inr.inr.inr.inr => simp [decodePhase_of_five_lt p hp] at h
    all_goals
      obtain rfl := Except.ok.inj h
      exact ⟨rfl, rfl⟩
  · rintro ⟨hformat, hcode⟩
    cases i with
    | enter | ack | adv | lkp | wr | ret =>
      obtain rfl := Selector.uop.inj hcode
      rfl
    | reset | tick | run | q0 | q1 | q2 | q3 | sample | norm | lookup | advance | curdeg => simp [Instr.format] at hformat

/-- The six codes of R52 are not reserved. -/
theorem decodePhase_of_le_five (p : Phase) (h : p.toNat ≤ 5) : ∃ i : Instr, decodePhase p = .ok i := by
  obtain rfl | rfl | rfl | rfl | rfl | rfl | hp := phase_cases p
  case inr.inr.inr.inr.inr.inr => omega
  all_goals exact ⟨_, rfl⟩

/-- A quadrant code is accepted on a normalised degree when it is the one computed from it (R53, R81). -/
theorem decodeQuadrant_eq_ok_iff (q : QuadCode) (d : Degree) (i : Instr) :
    decodeQuadrant q d = .ok i ↔ d.toNat < 360 ∧ q = quadrantCode d ∧ i = quadrantOp q d := by
  unfold decodeQuadrant
  split_ifs with hd hq
  · simp [Nat.not_lt.mpr hd]
  · simp [Nat.not_le.mp hd, hq, eq_comm]
  · simp [hq]

theorem encode_quadrantOp (q : QuadCode) (d : Degree) : encode (quadrantOp q d) = .qd q d := by
  have hq : q = 0#2 ∨ q = 1#2 ∨ q = 2#2 ∨ q = 3#2 := by
    revert q
    decide
  obtain rfl | rfl | rfl | rfl := hq
  all_goals rfl

/-- The operation that the computed code names has the degree in its own quadrant (R81 to R85). -/
theorem wellFormed_quadrantOp (d : Degree) (h : d.toNat < 360) :
    WellFormed (quadrantOp (quadrantCode d) d) = true := by
  obtain hq | hq | hq | hq := quadrant_cases d h
  · rw [quadrantCode_of_inQ0 d hq]
    exact hq
  · rw [quadrantCode_of_inQ1 d hq]
    exact hq
  · rw [quadrantCode_of_inQ2 d hq]
    exact hq
  · rw [quadrantCode_of_inQ3 d hq]
    exact hq

/-- Only the quadrant operations restrict their port (R31, R80). -/
theorem wellFormed_of_format_ne_qd (i : Instr) (h : i.format ≠ .qd) : WellFormed i = true := by
  cases i with
  | q0 | q1 | q2 | q3 => simp [Instr.format] at h
  | _ => rfl

/-- A well-formed quadrant operation is the one that the code of a normalised degree names (R81). -/
theorem exists_quadrantOp_of_wellFormed (i : Instr) (hformat : i.format = .qd) (hwf : WellFormed i = true) :
    ∃ d : Degree, d.toNat < 360 ∧ i = quadrantOp (quadrantCode d) d := by
  cases i with
  | q0 d =>
    have hd : d.toNat < 90 := by simpa [WellFormed, inQ0] using hwf
    exact ⟨d, by omega, by rw [quadrantCode_of_inQ0 d hwf]; rfl⟩
  | q1 d =>
    have hd : 90 ≤ d.toNat ∧ d.toNat < 180 := by simpa [WellFormed, inQ1] using hwf
    exact ⟨d, by omega, by rw [quadrantCode_of_inQ1 d hwf]; rfl⟩
  | q2 d =>
    have hd : 180 ≤ d.toNat ∧ d.toNat < 270 := by simpa [WellFormed, inQ2] using hwf
    exact ⟨d, by omega, by rw [quadrantCode_of_inQ2 d hwf]; rfl⟩
  | q3 d =>
    have hd : 270 ≤ d.toNat ∧ d.toNat < 360 := by simpa [WellFormed, inQ3] using hwf
    exact ⟨d, by omega, by rw [quadrantCode_of_inQ3 d hwf]; rfl⟩
  | _ => simp [Instr.format] at hformat

/-- An event word is the selector of its event, but for RESET's second word (R51). -/
theorem encode_decodeEvent (w : EvWord) :
    .ev w = encode (decodeEvent w) ∨ (w = 0b11#2 ∧ decodeEvent w = .reset) := by
  revert w
  decide

theorem decodeEvent_format (w : EvWord) : (decodeEvent w).format = .ev := by
  revert w
  decide

/-- Settles O1: a quadrant code is computed from the operation's own degree, and the other formats decode as listed. -/
theorem encodedOperationDecodesBack : Obligations.EncodedOperationDecodesBack := by
  unfold Obligations.EncodedOperationDecodesBack
  intro i hwf
  by_cases hformat : i.format = .qd
  · obtain ⟨d, hd, rfl⟩ := exists_quadrantOp_of_wellFormed i hformat hwf
    rw [encode_quadrantOp]
    exact (decodeQuadrant_eq_ok_iff _ d _).mpr ⟨hd, rfl, rfl⟩
  · cases i with
    | q0 | q1 | q2 | q3 => exact absurd rfl hformat
    | _ => rfl

/-- Settles O2, format by format. -/
theorem decodedSelectorIsCanonical : Obligations.DecodedSelectorIsCanonical := by
  unfold Obligations.DecodedSelectorIsCanonical
  intro sel i h
  cases sel with
  | ev w =>
    obtain rfl := Except.ok.inj h
    refine ⟨wellFormed_of_format_ne_qd _ (by simp [decodeEvent_format]), ?_⟩
    obtain hcanonical | ⟨rfl, hreset⟩ := encode_decodeEvent w
    · exact .inl hcanonical
    · exact .inr ⟨rfl, hreset⟩
  | uop p =>
    obtain ⟨hformat, hcode⟩ := (decodePhase_eq_ok_iff p i).mp h
    exact ⟨wellFormed_of_format_ne_qd i (by simp [hformat]), .inl hcode.symm⟩
  | qd q d =>
    obtain ⟨hd, rfl, rfl⟩ := (decodeQuadrant_eq_ok_iff q d i).mp h
    exact ⟨wellFormed_quadrantOp d hd, .inl (encode_quadrantOp _ d).symm⟩
  | romPort | normPort | lookupPort | advancePort | curdegPort =>
    obtain rfl := Except.ok.inj h
    exact ⟨rfl, .inl rfl⟩

/-- Settles O4: the events, the six phase codes beside the reserved ones, and the code that is the quotient by 90. -/
theorem everySelectorDecodesAsR60Says : Obligations.EverySelectorDecodesAsR60Says := by
  unfold Obligations.EverySelectorDecodesAsR60Says
  refine ⟨fun w => ?events, fun p => ?phases, fun d hd q => ?quadrants⟩
  case events =>
    obtain ⟨-, hw⟩ | ⟨-, hw⟩ | ⟨-, hw⟩ := Machine.decodeEvent_cases w
    all_goals simp [decode, hw]
  case phases =>
    obtain hp | hp := Nat.lt_or_ge 5 p.toNat
    · exact .inr ⟨hp, decodePhase_of_five_lt p hp⟩
    · obtain ⟨i, hi⟩ := decodePhase_of_le_five p hp
      obtain ⟨hformat, -⟩ := (decodePhase_eq_ok_iff p i).mp hi
      exact .inl ⟨hp, i, hformat, hi⟩
  case quadrants =>
    calc (∃ i, decode (.qd q d) = .ok i)
        ↔ q = quadrantCode d := by simp [decode, decodeQuadrant_eq_ok_iff, hd]
      _ ↔ q.toNat = d.toNat / 90 := by rw [← BitVec.toNat_inj, quadrantCode_toNat d hd]

/-- Settles O3, by evaluating the decoder on the eight words. -/
theorem tableWordsDecodeAsListed : Obligations.TableWordsDecodeAsListed := by
  unfold Obligations.TableWordsDecodeAsListed
  decide

end Sys2Proof
end

section
/-! What an event does to any state: RUN is the micro-operation that `phase` selects, and a step is a move of the relation of
R110 or a RUN without a step (spec/43_output_driver.md rules R110 to R118, spec/30_encoding.md rule R58). -/

namespace Sys2Proof.Machine

section
variable (c : Config) (s t : State)

@[simp] theorem execWith_reset : execWith c .reset s = execResetWith c s := rfl
@[simp] theorem execWith_tick : execWith c .tick s = execTickWith c s := rfl
@[simp] theorem execWith_run : execWith c .run s = execRunWith c s := rfl

/-- RUN performs the micro-operation whose code `phase` holds (R118). -/
theorem execRunWith_of_phase {p : Phase} {i : Instr} (hphase : s.phase = p) (hi : decodePhase p = .ok i) :
    execRunWith c s = execWith c i s := by
  subst hphase
  obtain ⟨hp, hrun⟩ | ⟨hp, hrun⟩ | ⟨hp, hrun⟩ | ⟨hp, hrun⟩ | ⟨hp, hrun⟩ | ⟨hp, hrun⟩ | ⟨hp, -⟩ :=
    execRunWith_cases c s
  case inr.inr.inr.inr.inr.inr => simp [decodePhase_of_five_lt _ hp] at hi
  all_goals
    rw [hp] at hi
    obtain rfl := Except.ok.inj hi
    exact hrun

/-- On a reserved code the runner leaves the state as it is (R58; log entry 3). -/
theorem execRunWith_of_five_lt (h : 5 < s.phase.toNat) : execRunWith c s = .next s := by
  obtain ⟨hp, -⟩ | ⟨hp, -⟩ | ⟨hp, -⟩ | ⟨hp, -⟩ | ⟨hp, -⟩ | ⟨hp, -⟩ | ⟨-, hrun⟩ := execRunWith_cases c s
  case inr.inr.inr.inr.inr.inr => exact hrun
  all_goals simp [hp] at h

theorem execEnterWith_of_tick (h : s.tickFlag = true) : execEnterWith c s = .next (takeTick s) := by
  simp [execEnterWith, tickPending, h]

theorem execEnterWith_of_no_tick (h : s.tickFlag = false) : execEnterWith c s = .next s := by
  simp [execEnterWith, tickPending, h]

/-- RUN completes from every state (R86, R118). -/
theorem exists_execRunWith_next : ∃ u, execRunWith c s = .next u := by
  obtain ⟨-, hrun⟩ | ⟨-, hrun⟩ | ⟨-, hrun⟩ | ⟨-, hrun⟩ | ⟨-, hrun⟩ | ⟨-, hrun⟩ | ⟨-, hrun⟩ :=
    execRunWith_cases c s
  case inl =>
    cases hflag : s.tickFlag
    · exact ⟨s, hrun.trans (execEnterWith_of_no_tick c s hflag)⟩
    · exact ⟨takeTick s, hrun.trans (execEnterWith_of_tick c s hflag)⟩
  case inr.inr.inr.inl => exact ⟨_, hrun.trans (execLkpWith_eq c s)⟩
  all_goals exact ⟨_, hrun⟩

/-- The event of every event word completes from every state (R140, R170). -/
theorem exists_execWith_decodeEvent_next (w : EvWord) : ∃ u, execWith c (decodeEvent w) s = .next u := by
  obtain ⟨-, hw⟩ | ⟨-, hw⟩ | ⟨-, hw⟩ := decodeEvent_cases w <;> rw [hw]
  · exact ⟨_, rfl⟩
  · exact ⟨_, rfl⟩
  · exact exists_execRunWith_next c s

theorem exists_stepWith_next : ∃ u, stepWith c s = .next u :=
  exists_execWith_decodeEvent_next c (consumeEvent s) (nextEvent s)

/-! The relation, event by event. -/

theorem moves_reset_iff : Moves c .reset s t ↔ execResetWith c s = .next t := by
  constructor
  · rintro ⟨⟩
    rfl
  · intro h
    obtain rfl := Host.Outcome.next.inj h
    exact .reset s

theorem execTickWith_eq :
    execTickWith c s =
      .next { s with dor := s.dhr, tickFlag := true, history := s.history ++ [.tick, .latch s.dhr] } := by
  simp [execTickWith, setTickFlag, emit, latchOutput]

theorem moves_tick_iff : Moves c .tick s t ↔ execTickWith c s = .next t := by
  rw [execTickWith_eq]
  constructor
  · rintro ⟨⟩
    rfl
  · intro h
    obtain rfl := Host.Outcome.next.inj h
    exact .tick s

/-- The value of ADVANCE is the only angle that is one conditional subtraction away (R100). -/
theorem eq_advance_iff (a b : Angle) : b = advance c a ↔ b.toNat = advanceNat a.toNat c.step.val := by
  rw [← advance_toNat, BitVec.toNat_inj]

/-- A move of the driver is what RUN does (R111 to R116). -/
theorem execRunWith_of_moves (h : Moves c .run s t) : execRunWith c s = .next t := by
  cases h with
  | enter _ hp hflag => exact (execRunWith_of_phase c s hp rfl).trans (execEnterWith_of_tick c s hflag)
  | ack _ hp => exact execRunWith_of_phase c s hp rfl
  | adv _ a hp ha =>
    obtain rfl := (eq_advance_iff c s.angle a).mpr ha
    exact execRunWith_of_phase c s hp rfl
  | lkp _ v hp hv =>
    obtain rfl : v = BitVec.ofNat 13 (formulaAmp c (s.angle.toNat / 1000 : Nat)) := by
      rw [← hv, BitVec.ofNat_toNat, BitVec.setWidth_eq]
    exact (execRunWith_of_phase c s hp rfl).trans (execLkpWith_eq c s)
  | wr _ hp => exact execRunWith_of_phase c s hp rfl
  | ret _ hp => exact execRunWith_of_phase c s hp rfl

/-- The driver has no step in Idle without a tick, nor on a reserved code (R110). -/
theorem driverEnabled_eq_false_iff :
    driverEnabled s = false ↔ (s.phase = 0#3 ∧ s.tickFlag = false) ∨ 5 < s.phase.toNat := by
  obtain hp | hp | hp | hp | hp | hp | hp := phase_cases s.phase
  case inr.inr.inr.inr.inr.inr =>
    have hne : s.phase.toNat ≠ 0 := by omega
    simp [driverEnabled, hp, hne]
  all_goals simp [driverEnabled, hp]

/-- Where the driver is not enabled RUN has no step, and the runner changes nothing (R58; log entry 3). -/
theorem execRunWith_of_not_enabled (h : driverEnabled s = false) : execRunWith c s = .next s := by
  obtain ⟨hp, hflag⟩ | hp := (driverEnabled_eq_false_iff s).mp h
  · exact (execRunWith_of_phase c s hp rfl).trans (execEnterWith_of_no_tick c s hflag)
  · exact execRunWith_of_five_lt c s hp

/-- RUN is a move of the driver, or no step at all. -/
theorem execRunWith_next_iff :
    execRunWith c s = .next t ↔ Moves c .run s t ∨ (driverEnabled s = false ∧ t = s) := by
  constructor
  · intro h
    obtain ⟨hp, hflag, rfl⟩ | ⟨hp, hflag, rfl⟩ | ⟨hp, rfl⟩ | ⟨hp, rfl⟩ | ⟨hp, v, hv, rfl⟩ | ⟨hp, rfl⟩ | ⟨hp, rfl⟩ |
      ⟨hp, rfl⟩ := execRunWith_next c s t h
    · exact .inl (.enter s hp hflag)
    · exact .inr ⟨(driverEnabled_eq_false_iff _).mpr (.inl ⟨hp, hflag⟩), rfl⟩
    · exact .inl (.ack s hp)
    · exact .inl (.adv s _ hp (advance_toNat c s.angle))
    · obtain rfl := (lookup_eq_ok_iff c _ v).mp hv
      exact .inl (.lkp s _ hp (toNat_ofNat_formulaAmp c _))
    · exact .inl (.wr s hp)
    · exact .inl (.ret s hp)
    · exact .inr ⟨(driverEnabled_eq_false_iff _).mpr (.inr hp), rfl⟩
  · rintro (hmove | ⟨hdisabled, rfl⟩)
    · exact execRunWith_of_moves c s t hmove
    · exact execRunWith_of_not_enabled c _ hdisabled

theorem driverEnabled_consumeEvent : driverEnabled (consumeEvent s) = driverEnabled s := by
  simp [driverEnabled]

end

/-- Settles O10, event by event. -/
theorem stepIsTheEventRelation : Obligations.StepIsTheEventRelation := by
  unfold Obligations.StepIsTheEventRelation
  intro c s t
  rw [stepWith, ← driverEnabled_consumeEvent]
  obtain ⟨he, hd⟩ | ⟨he, hd⟩ | ⟨he, hd⟩ := decodeEvent_cases (nextEvent s) <;> rw [hd, he]
  · simpa using (moves_reset_iff c (consumeEvent s) t).symm
  · simpa using (moves_tick_iff c (consumeEvent s) t).symm
  · simpa using execRunWith_next_iff c (consumeEvent s) t

/-- Settles O9: an event word stands for RESET, TICK or RUN, and LOOKUP, the one place that could refuse, never does. -/
theorem everyStepAnswersNextState : Obligations.EveryStepAnswersNextState := by
  unfold Obligations.EveryStepAnswersNextState
  refine ⟨exists_stepWith_next, fun s => ?_⟩
  rw [step_eq_stepWith_device]
  exact exists_stepWith_next Config.device s

/-- Settles O7, from what RUN does on a legal code, on a reserved one, and in Idle without a tick. -/
theorem runPerformsSelectedMicroOperation : Obligations.RunPerformsSelectedMicroOperation := by
  unfold Obligations.RunPerformsSelectedMicroOperation
  simp only [exec_eq_execWith_device]
  refine ⟨exists_execRunWith_next _, fun s i h => execRunWith_of_phase _ s rfl h, execRunWith_of_five_lt _, ?_⟩
  intro s hp hflag
  have henter : execWith Config.device .enter s = .next s := execEnterWith_of_no_tick Config.device s hflag
  exact ⟨(execRunWith_of_phase Config.device s hp rfl).trans henter, henter⟩

/-- Settles O6: an event word always decodes, so the decoded operation is the one the step runs. -/
theorem stepRunsDecodedEvent : Obligations.StepRunsDecodedEvent := by
  unfold Obligations.StepRunsDecodedEvent
  refine ⟨fun s w rest i hs hi => ?scheduled, fun s i hs hi => ?free⟩
  case scheduled =>
    obtain rfl := Except.ok.inj hi
    rw [step, nextEvent_cons s w rest hs, consumeEvent_cons s w rest hs]
  case free =>
    obtain rfl := Except.ok.inj hi
    rw [step, consumeEvent_nil s hs, nextEvent, hs]

end Sys2Proof.Machine
end

section
/-! What stands around the step: how an untagged table word comes to be run (log entry 13), and which values the
micro-operations take from the datapath (spec/30_encoding.md rules R51, R52, R54). -/

namespace Sys2Proof

/-- The decoder reads a table word by way of the one selector the word stands for. -/
theorem decodeTableWord_eq_some_iff (nbits w : Nat) (i : Instr) :
    decodeTableWord nbits w = some i ↔ ∃ sel, tableSelector nbits w = some sel ∧ decode sel = .ok i := by
  unfold decodeTableWord
  cases htable : tableSelector nbits w with
  | none => simp
  | some sel =>
    cases hdecode : decode sel with
    | error e => simp [hdecode, Except.toOption]
    | ok j => simp [hdecode, Except.toOption]

/-- A table word stands for an event word or a `phase` code (log entry 13). -/
theorem tableSelector_cases (nbits w : Nat) (sel : Selector) (h : tableSelector nbits w = some sel) :
    (∃ p, sel = .uop p) ∨ ∃ e, sel = .ev e := by
  unfold tableSelector at h
  split_ifs at h
  · exact .inl ⟨_, (Option.some.inj h).symm⟩
  · exact .inr ⟨_, (Option.some.inj h).symm⟩

namespace Machine

theorem withFetchWord_of_tableSelector (s : State) (nbits w : Nat) (sel : Selector)
    (h : tableSelector nbits w = some sel) : s.withFetchWord nbits w = placeSelector sel s := by
  simp [State.withFetchWord, placeTableWord, h]

/-- A placed event word is the next event, and the state is then as it was. -/
theorem step_placeSelector_ev (e : EvWord) (s : State) : step (placeSelector (.ev e) s) = exec (decodeEvent e) s := rfl

/-- A placed `phase` code is performed by the RUN placed with it (R118). -/
theorem step_placeSelector_uop (p : Phase) (s : State) {i : Instr} (h : decodePhase p = .ok i) :
    step (placeSelector (.uop p) s) = exec i { s with phase := p } := by
  calc step (placeSelector (.uop p) s)
      = stepWith Config.device (placeSelector (.uop p) s) := step_eq_stepWith_device _
    _ = execRunWith Config.device { s with phase := p } := stepWith_scheduled_run _ _ s.schedule rfl
    _ = execWith Config.device i { s with phase := p } := execRunWith_of_phase _ _ rfl h
    _ = exec i { s with phase := p } := (exec_eq_execWith_device i _).symm

/-- Settles O5: the word stands for an event, which is placed as it is, or for a `phase` code, which is placed with RUN. -/
theorem fetchedTableWordRunsNext : Obligations.FetchedTableWordRunsNext := by
  unfold Obligations.FetchedTableWordRunsNext
  intro s nbits w i h
  obtain ⟨sel, htable, hdecode⟩ := (decodeTableWord_eq_some_iff nbits w i).mp h
  rw [withFetchWord_of_tableSelector s nbits w sel htable]
  obtain ⟨p, rfl⟩ | ⟨e, rfl⟩ := tableSelector_cases nbits w sel htable
  · obtain ⟨hformat, -⟩ := (decodePhase_eq_ok_iff p i).mp hdecode
    exact ⟨p, step_placeSelector_uop p s hdecode, by simp [hformat]⟩
  · obtain rfl := Except.ok.inj hdecode
    exact ⟨s.phase, step_placeSelector_ev e s, fun _ => rfl⟩

section
variable (c : Config) (s u : State)

/-- ADVANCE on its own shows the sum that ADV would write. -/
theorem shownWith_execWith_advance (h : execWith c .advance s = .next u) :
    shownWith c u = some (.angle (advance c s.angle)) := by
  obtain rfl := Host.Outcome.next.inj h
  exact shownWith_adder c s

theorem shownWith_execWith_curdeg (h : execWith c .curdeg s = .next u) :
    shownWith c u = some (.wideDegree (curdeg s.angle)) := by
  obtain rfl := Host.Outcome.next.inj h
  exact shownWith_deg c s

/-- LOOKUP on its own shows the amplitude of its port's integer. -/
theorem shownWith_execWith_lookup (degIn : DegPort) (h : execWith c (.lookup degIn) s = .next u) :
    shownWith c u = some (.amp (BitVec.ofNat 13 (formulaAmp c (portInteger degIn)))) := by
  have hanswer := showResult_amp _ _ s (lookup_eq_formulaAmp c (portInteger degIn))
  obtain rfl := Host.Outcome.next.inj (hanswer.symm.trans h)
  exact shownWith_amp c s _

end

/-- Settles O34: what each output shows is the very value the micro-operation writes. -/
theorem microOperationsUseTheDatapath : Obligations.MicroOperationsUseTheDatapath := by
  unfold Obligations.MicroOperationsUseTheDatapath
  refine ⟨fun c s t u a hadv hadvance hshown => ?adv, fun c s t u r d v hlkp hcurdeg hdeg hlookup hamp => ?lkp⟩
  case adv =>
    obtain rfl := Host.Outcome.next.inj hadv
    simpa [shownWith_execWith_advance c s u hadvance] using hshown
  case lkp =>
    obtain rfl : curdeg s.angle = d := by
      simpa [shownWith_execWith_curdeg c s u hcurdeg] using hdeg
    have hport : portInteger ((curdeg s.angle).setWidth 32) = (s.angle.toNat / 1000 : Nat) := by
      rw [← curdeg_toNat]
      exact portInteger_degOperand (curdeg s.angle)
    rw [shownWith_execWith_lookup c s r _ hlookup, hport] at hamp
    obtain rfl := Host.Outcome.next.inj ((execLkpWith_eq c s).symm.trans hlkp)
    simpa using hamp

end Machine
end Sys2Proof
end

section
/-! Runs of a schedule, word by word and part by part, and what SERVICE and FRAME do (spec/30_encoding.md rule R58;
spec/43_output_driver.md rule R119). -/

namespace Sys2Proof.Machine

section
variable (c : Config) (s : State)

/-! The words still to come pass through every event. -/

theorem execEnterWith_present (ws : List EvWord) :
    execEnterWith c (present ws s) = mapNext (present ws) (execEnterWith c s) := by
  cases hflag : s.tickFlag
  · rw [execEnterWith_of_no_tick c s hflag]
    exact execEnterWith_of_no_tick c (present ws s) hflag
  · rw [execEnterWith_of_tick c s hflag]
    exact execEnterWith_of_tick c (present ws s) hflag

theorem execLkpWith_present (ws : List EvWord) :
    execLkpWith c (present ws s) = mapNext (present ws) (execLkpWith c s) := by
  rw [execLkpWith_eq, execLkpWith_eq]
  rfl

theorem execRunWith_present (ws : List EvWord) :
    execRunWith c (present ws s) = mapNext (present ws) (execRunWith c s) := by
  unfold execRunWith
  rw [present_phase]
  split
  · exact execEnterWith_present c s ws
  · rfl
  · rfl
  · exact execLkpWith_present c s ws
  · rfl
  · rfl
  · rfl

theorem execWith_decodeEvent_present (w : EvWord) (ws : List EvWord) :
    execWith c (decodeEvent w) (present ws s) = mapNext (present ws) (execWith c (decodeEvent w) s) := by
  obtain ⟨-, hw⟩ | ⟨-, hw⟩ | ⟨-, hw⟩ := decodeEvent_cases w <;> rw [hw]
  · rfl
  · rfl
  · exact execRunWith_present c s ws

/-! The rules of a schedule run (R58): no word, one word first, two parts. -/

@[simp] theorem runSchedule_nil : runSchedule c [] s = .next s := rfl

variable {s} {t : State}

theorem runSchedule_cons {w : EvWord} (ws : List EvWord) (h : execWith c (decodeEvent w) s = .next t) :
    runSchedule c (w :: ws) s = runSchedule c ws t := by
  have hstep : stepWith c (present (w :: ws) s) = .next (present ws t) := by
    calc stepWith c (present (w :: ws) s)
        = execWith c (decodeEvent w) (present ws s) := rfl
      _ = .next (present ws t) := by rw [execWith_decodeEvent_present, h]; rfl
  exact runWith_succ c ws.length _ _ hstep

theorem runSchedule_append (ws vs : List EvWord) (h : runSchedule c ws s = .next t) :
    runSchedule c (ws ++ vs) s = runSchedule c vs t := by
  induction ws generalizing s with
  | nil =>
    obtain rfl := Host.Outcome.next.inj h
    rfl
  | cons w ws ih =>
    obtain ⟨u, hu⟩ := exists_execWith_decodeEvent_next c s w
    rw [runSchedule_cons c ws hu] at h
    rw [List.cons_append, runSchedule_cons c _ hu]
    exact ih h

theorem runSchedule_tick (ws : List EvWord) (h : execTickWith c s = .next t) :
    runSchedule c (0b01#2 :: ws) s = runSchedule c ws t :=
  runSchedule_cons c ws h

/-- A RUN performs the micro-operation `i` that `phase` selects. -/
theorem runSchedule_run (i : Instr) (ws : List EvWord) (hphase : decodePhase s.phase = .ok i)
    (h : execWith c i s = .next t) : runSchedule c (0b00#2 :: ws) s = runSchedule c ws t :=
  runSchedule_cons c ws ((execRunWith_of_phase c s rfl hphase).trans h)

end

/-- The state after a SERVICE that started in Idle with a tick pending (R119): one acknowledge, one advance, and the
amplitude of the new angle looked up and written. -/
def serviced (c : Config) (s : State) : State :=
  let v : Amp := BitVec.ofNat 13 (formulaAmp c ((advance c s.angle).toNat / 1000 : Nat))
  { s with
    angle := advance c s.angle
    phase := 0#3
    amp := some v
    tickFlag := false
    dhr := some v
    history := s.history ++ [.ack, .wr (some v)] }

/-- The state after a TICK (R117). -/
def ticked (s : State) : State :=
  { s with dor := s.dhr, tickFlag := true, history := s.history ++ [.tick, .latch s.dhr] }

section
variable (c : Config) {s : State}

/-- SERVICE is ENTER, ACK, ADV, LKP, WR and RET, one after the other (R119). -/
theorem runSchedule_serviceWords (hidle : s.phase = 0#3) (hflag : s.tickFlag = true) :
    runSchedule c serviceWords s = .next (serviced c s) := by
  calc runSchedule c serviceWords s
      = runSchedule c (List.replicate 5 0b00#2) (takeTick s) :=
        runSchedule_run c .enter _ (by rw [hidle]; rfl) (execEnterWith_of_tick c s hflag)
    _ = runSchedule c (List.replicate 4 0b00#2) (setPhase 2#3 (emit .ack (clearTickFlag s))) :=
        runSchedule_run c .ack _ rfl rfl
    _ = runSchedule c (List.replicate 3 0b00#2)
          (setPhase 3#3 (writeAngle (advance c s.angle) (emit .ack (clearTickFlag s)))) :=
        runSchedule_run c .adv _ rfl rfl
    _ = runSchedule c (List.replicate 2 0b00#2) _ := runSchedule_run c .lkp _ rfl (execLkpWith_eq c _)
    _ = runSchedule c [0b00#2] _ := runSchedule_run c .wr _ rfl rfl
    _ = runSchedule c [] _ := runSchedule_run c .ret [] rfl rfl
    _ = .next (serviced c s) := by
        simp [serviced, returnFromTick, setPhase, memWriteOut, emit, writeAmp, writeAngle, clearTickFlag]

/-- FRAME is a TICK and the service of it (R58). -/
theorem runSchedule_frameWords (hidle : s.phase = 0#3) :
    runSchedule c frameWords s = .next (serviced c (ticked s)) := by
  calc runSchedule c frameWords s
      = runSchedule c serviceWords (ticked s) := runSchedule_tick c _ (execTickWith_eq c s)
    _ = .next (serviced c (ticked s)) := runSchedule_serviceWords c hidle rfl

end

theorem ticks_serviced_ticked (c : Config) (s : State) :
    ticks (serviced c (ticked s)).history = ticks s.history + 1 := by
  simp [serviced, ticked]

theorem acks_serviced_ticked (c : Config) (s : State) :
    acks (serviced c (ticked s)).history = acks s.history + 1 := by
  simp [serviced, ticked]

theorem framesWords_eq_flatten (n : Nat) : framesWords n = (List.replicate n frameWords).flatten := by
  induction n with
  | zero => rfl
  | succ n ih => rw [framesWords, ih, List.replicate_succ, List.flatten_cons]

/-- `FRAME n` may be used in Idle with no tick pending (R58). -/
theorem frameTimes_allowedAt_iff (n : Nat) (s : State) :
    (Line.frameTimes n).allowedAt s = true ↔ s.phase = 0#3 ∧ s.tickFlag = false := by
  simp [Line.allowedAt, isIdle_iff]

/-- `n` frames from Idle: each leaves the driver in Idle with its tick acknowledged, so the next may follow. -/
theorem runSchedule_framesWords (c : Config) (n : Nat) (s : State) (hidle : s.phase = 0#3) (hflag : s.tickFlag = false) :
    ∃ t, runSchedule c (framesWords n) s = .next t ∧ t.phase = 0#3 ∧ t.tickFlag = false ∧
      ticks t.history = ticks s.history + n ∧ acks t.history = acks s.history + n := by
  induction n generalizing s with
  | zero => exact ⟨s, rfl, hidle, hflag, rfl, rfl⟩
  | succ n ih =>
    obtain ⟨t, hrun, htidle, htflag, hticks, hacks⟩ := ih (serviced c (ticked s)) rfl rfl
    rw [ticks_serviced_ticked] at hticks
    rw [acks_serviced_ticked] at hacks
    refine ⟨t, ?_, htidle, htflag, by omega, by omega⟩
    rw [framesWords, runSchedule_append c _ _ (runSchedule_frameWords c hidle)]
    exact hrun

/-- Settles O52, by induction on the number of frames. -/
theorem framesMayFollowFrames : Obligations.FramesMayFollowFrames := by
  unfold Obligations.FramesMayFollowFrames
  simp only [frameTimes_allowedAt_iff]
  refine ⟨framesWords_eq_flatten, fun c s n hallowed => ?_⟩
  obtain ⟨hidle, hflag⟩ := hallowed
  obtain ⟨t, hrun, htidle, htflag, hticks, hacks⟩ := runSchedule_framesWords c n s hidle hflag
  exact ⟨t, hrun, ⟨htidle, htflag⟩, hticks, hacks⟩

end Sys2Proof.Machine
end

section
/-! The wavetable ROM (spec/40_wavetable_rom.md): what SAMPLE does at each address (R70), and that the default words
are the rounded sine (R71). -/

namespace Sys2Proof.Machine

/-- The nearest word to an amplitude (R71), decided over the integers: `w` is it when the scaled sine of `n` degrees stays
within one half of it, the whole error of the scaled sine included. -/
theorem abs_sin_sub_lt_half_of_scaledSinCos (n : ℕ) (w : ℤ)
    (h : |4096 * (scaledSinCos n).1 - w * 10 ^ 12| < 5 * 10 ^ 11 - 4096 * scaledError n) :
    |4096 * Real.sin (n * (Real.pi / 180)) - w| < 1 / 2 := by
  obtain ⟨herror, -⟩ := sin_cos_degrees_bounds n
  obtain ⟨hsin_lo, hsin_hi⟩ := abs_le.mp herror
  obtain ⟨hword_lo, hword_hi⟩ := abs_lt.mp h
  rify at hword_lo hword_hi
  rw [abs_lt]
  constructor <;> linarith

/-- Each default word is near enough to the scaled sine of its index. -/
theorem defaultTable_near_scaledSinCos (i : Fin 91) :
    |4096 * (scaledSinCos i.val).1 - ((defaultTable i).val : ℤ) * 10 ^ 12| <
      5 * 10 ^ 11 - 4096 * scaledError i.val := by
  revert i
  decide

/-- Settles O31: the integer bounds of the sine decide the nearest word at each of the 91 indices. -/
theorem defaultTableIsTheRoundedSine : Obligations.DefaultTableIsTheRoundedSine := by
  unfold Obligations.DefaultTableIsTheRoundedSine
  intro i
  rw [mul_div_assoc]
  exact_mod_cast abs_sin_sub_lt_half_of_scaledSinCos i.val (defaultTable i).val (defaultTable_near_scaledSinCos i)

section
variable (c : Config) (index : RomAddr) (s : State)

/-- SAMPLE at an address that holds a word shows that word, and changes nothing else. -/
theorem execWith_sample_of_lt (h : index.toNat < 91) :
    execWith c (.sample index) s = .next { s with readout := some (.amp (romWord c ⟨index.toNat, h⟩)) } :=
  showResult_amp _ _ s (sample_of_lt c index h)

theorem execWith_sample_of_ge (h : 91 ≤ index.toNat) : execWith c (.sample index) s = .refused .romRange := by
  rw [execWith, execSampleWith, sample_of_ge c index h]
  rfl

end

/-- Word 90 is the one default word that needs the 13th bit (R70). -/
theorem defaultTable_above_twelve_bits_iff (i : Fin 91) : 0xFFF < (defaultTable i).val ↔ i.val = 90 := by
  revert i
  decide

/-- Settles O23: addresses up to 90 hold a word, the ones above hold none; the rest are words of R72. -/
theorem sampleReadsTheRom : Obligations.SampleReadsTheRom := by
  unfold Obligations.SampleReadsTheRom
  refine ⟨fun index s h => ?answers, fun index s h => ?refuses, fun c index h => ?word, sample_of_ge, rfl, rfl,
    defaultTable_above_twelve_bits_iff⟩
  case answers =>
    rw [exec_eq_execWith_device, execWith_sample_of_lt _ index s (by omega)]
    exact ⟨_, _, rfl, shownWith_amp Config.device s _, romWord_toNat _ _, rfl⟩
  case refuses =>
    rw [exec_eq_execWith_device, execWith_sample_of_ge _ index s h]
  case word =>
    exact ⟨_, sample_of_lt c index (by omega), romWord_toNat _ _⟩

end Sys2Proof.Machine
end

section
/-! The resolver driven on its own (spec/41_quadrant_lookup.md rules R80 to R86): what NORM, the four quadrant operations
and LOOKUP show on their ports. -/

namespace Sys2Proof

@[simp] theorem inQ0_iff (d : Degree) : inQ0 d = true ↔ d.toNat < 90 := by simp [inQ0]
@[simp] theorem inQ1_iff (d : Degree) : inQ1 d = true ↔ 90 ≤ d.toNat ∧ d.toNat < 180 := by simp [inQ1]
@[simp] theorem inQ2_iff (d : Degree) : inQ2 d = true ↔ 180 ≤ d.toNat ∧ d.toNat < 270 := by simp [inQ2]
@[simp] theorem inQ3_iff (d : Degree) : inQ3 d = true ↔ 270 ≤ d.toNat ∧ d.toNat < 360 := by simp [inQ3]

namespace Machine

/-- A sub-block that answers an amplitude shows it, and no element changes (log entry 6). -/
theorem exists_showResult_amp (c : Config) (s : State) {r : Except Refusal Amp} {n : Nat}
    (h : ∃ v, r = .ok v ∧ v.toNat = n) :
    ∃ t v, showResult (r.map .amp) s = .next t ∧ t.elements = s.elements ∧ shownWith c t = some (.amp v) ∧
      v.toNat = n := by
  obtain ⟨v, hv, hn⟩ := h
  exact ⟨_, v, showResult_amp r v s hv, rfl, shownWith_amp c s v, hn⟩

/-- Settles O25: each quadrant operation answers its formula on its own quadrant, and its port shows the answer. -/
theorem quadrantOperationsFollowTheirFormulas : Obligations.QuadrantOperationsFollowTheirFormulas := by
  unfold Obligations.QuadrantOperationsFollowTheirFormulas
  refine ⟨fun d s h => ?q0, fun d s h h' => ?q1, fun d s h h' => ?q2, fun d s h h' => ?q3, fun c d => ?formulas⟩
  case q0 => exact exists_showResult_amp _ s (quadrant0_ok _ d ((inQ0_iff d).mpr h))
  case q1 => exact exists_showResult_amp _ s (quadrant1_ok _ d ((inQ1_iff d).mpr ⟨h, h'⟩))
  case q2 => exact exists_showResult_amp _ s (quadrant2_ok _ d ((inQ2_iff d).mpr ⟨h, h'⟩))
  case q3 => exact exists_showResult_amp _ s (quadrant3_ok _ d ((inQ3_iff d).mpr ⟨h, h'⟩))
  case formulas =>
    exact ⟨fun h => quadrant0_ok c d ((inQ0_iff d).mpr h), fun h h' => quadrant1_ok c d ((inQ1_iff d).mpr ⟨h, h'⟩),
      fun h h' => quadrant2_ok c d ((inQ2_iff d).mpr ⟨h, h'⟩), fun h h' => quadrant3_ok c d ((inQ3_iff d).mpr ⟨h, h'⟩)⟩

/-- Settles O27: the operation that LOOKUP selects answers the formula of its quadrant, and the port shows the answer. -/
theorem lookupFollowsTheDocumentFormulas : Obligations.LookupFollowsTheDocumentFormulas := by
  unfold Obligations.LookupFollowsTheDocumentFormulas
  exact ⟨fun degIn s => exists_showResult_amp _ s (dispatchQuadrant_norm _ degIn.toInt), dispatchQuadrant_norm⟩

/-- The degree NORM answers differs from its argument by whole revolutions (R80). -/
theorem exists_eq_mul_add_norm (a : Int) : ∃ k : Int, a = 360 * k + (norm a).toNat := by
  refine ⟨a / 360, ?_⟩
  rw [norm_toNat]
  omega

/-- Settles O24: NORM shows the remainder of the port's integer, whatever its sign. -/
theorem normIsTheFlooredModulo : Obligations.NormIsTheFlooredModulo := by
  unfold Obligations.NormIsTheFlooredModulo
  refine ⟨fun degIn s => ?port, fun a => ⟨norm_lt a, exists_eq_mul_add_norm a⟩⟩
  exact ⟨_, norm degIn.toInt, rfl, shownWith_normaliser _ s degIn, rfl, norm_lt _, exists_eq_mul_add_norm _⟩

/-- NORM on its own shows the normalised degree of its port's integer. -/
theorem shownWith_execWith_norm (c : Config) (s t : State) (degIn : DegPort) (h : execWith c (.norm degIn) s = .next t) :
    shownWith c t = some (.degree (norm (portInteger degIn))) := by
  obtain rfl := Host.Outcome.next.inj h
  exact shownWith_normaliser c s degIn

/-- The operation a degree's own quadrant code names is the one the resolver dispatches to (R81, R86). -/
theorem execWith_quadrantOp (c : Config) (d : Degree) (s : State) :
    execWith c (quadrantOp (quadrantCode d) d) s = showResult ((dispatchQuadrant c d).map .amp) s := by
  have hcode : ∀ q : QuadCode, q = 0#2 ∨ q = 1#2 ∨ q = 2#2 ∨ q = 3#2 := by decide
  rw [dispatchQuadrant]
  obtain hq | hq | hq | hq := hcode (quadrantCode d)
  all_goals
    rw [hq]
    rfl

/-- Settles O28: the decoder and LOOKUP choose the quadrant operation by the same code of the same degree. -/
theorem lookupIsNormThenQuadrantOperation : Obligations.LookupIsNormThenQuadrantOperation := by
  unfold Obligations.LookupIsNormThenQuadrantOperation
  intro degIn s t d i hnorm hshown hdecode
  obtain ⟨-, -, rfl⟩ := (decodeQuadrant_eq_ok_iff _ d i).mp hdecode
  obtain rfl : norm (portInteger degIn) = d := by
    simpa [shown, shownWith_execWith_norm _ s t degIn hnorm] using hshown
  exact (execWith_quadrantOp Config.device _ s).symm.trans (exec_eq_execWith_device _ s).symm

end Machine
end Sys2Proof
end

section
/-! The four formulas by the ROM index they read, and what follows for LOOKUP: its range, and the symmetries of the wave
(spec/41_quadrant_lookup.md rules R88, R89). -/

namespace Sys2Proof.Machine

section
variable {d : Degree}

theorem romIndex_toNat_of_inQ0 (h : inQ0 d = true) : (romIndex d).toNat = d.toNat := by
  simpa [romIndex, quadrantCode_of_inQ0 d h] using indexQ0_toNat d h

theorem romIndex_toNat_of_inQ1 (h : inQ1 d = true) : (romIndex d).toNat = 180 - d.toNat := by
  simpa [romIndex, quadrantCode_of_inQ1 d h] using indexQ1_toNat d h

theorem romIndex_toNat_of_inQ2 (h : inQ2 d = true) : (romIndex d).toNat = d.toNat - 180 := by
  simpa [romIndex, quadrantCode_of_inQ2 d h] using indexQ2_toNat d h

theorem romIndex_toNat_of_inQ3 (h : inQ3 d = true) : (romIndex d).toNat = 360 - d.toNat := by
  simpa [romIndex, quadrantCode_of_inQ3 d h] using indexQ3_toNat d h

/-- The quadrants that count up from a multiple of a half turn stop before index 90 (R88). -/
theorem romIndex_le_of_inQ0_or_inQ2 (h : inQ0 d = true ∨ inQ2 d = true) : (romIndex d).toNat ≤ 89 := by
  obtain hq | hq := h
  · have hd := (inQ0_iff d).mp hq
    rw [romIndex_toNat_of_inQ0 hq]
    omega
  · have hd := (inQ2_iff d).mp hq
    rw [romIndex_toNat_of_inQ2 hq]
    omega

/-- The quadrants that count down to a multiple of a half turn stop before index 0 (R88). -/
theorem romIndex_mem_of_inQ1_or_inQ3 (h : inQ1 d = true ∨ inQ3 d = true) :
    1 ≤ (romIndex d).toNat ∧ (romIndex d).toNat ≤ 90 := by
  obtain hq | hq := h
  · have hd := (inQ1_iff d).mp hq
    rw [romIndex_toNat_of_inQ1 hq]
    omega
  · have hd := (inQ3_iff d).mp hq
    rw [romIndex_toNat_of_inQ3 hq]
    omega

theorem romIndex_le (h : d.toNat < 360) : (romIndex d).toNat ≤ 90 := by
  obtain hq | hq | hq | hq := quadrant_cases d h
  · exact (romIndex_le_of_inQ0_or_inQ2 (.inl hq)).trans (by decide)
  · exact (romIndex_mem_of_inQ1_or_inQ3 (.inl hq)).2
  · exact (romIndex_le_of_inQ0_or_inQ2 (.inr hq)).trans (by decide)
  · exact (romIndex_mem_of_inQ1_or_inQ3 (.inr hq)).2

end

/-- Q0 forms every index below 90 and Q1 forms 90, so LOOKUP reads every word of the ROM (R88). -/
theorem exists_romIndex_norm_eq (i : RomAddr) (h : i.toNat ≤ 90) : ∃ a : Int, romIndex (norm a) = i := by
  have hnorm : (norm i.toNat).toNat = i.toNat := by
    rw [norm_toNat]
    omega
  refine ⟨i.toNat, BitVec.eq_of_toNat_eq ?_⟩
  obtain hlt | heq := Nat.lt_or_eq_of_le h
  · rw [romIndex_toNat_of_inQ0 (by simpa [hnorm] using hlt), hnorm]
  · rw [romIndex_toNat_of_inQ1 (by simp [heq]), hnorm, heq]

section
variable (c : Config) {a : Int} {i : Nat}

/-! Each formula at the degree that is `i` away from a multiple of a half turn. The two that count down hold at index 0
too, where they agree with the one that counts up. -/

theorem formulaAmp_of_emod_eq (h : a % 360 = i) (hi : i < 90) : formulaAmp c a = wordAt c i := by
  have hn : (norm a).toNat = i := by
    rw [norm_toNat]
    omega
  rw [formulaAmp_eq_norm, hn, if_pos hi]

theorem formulaAmp_of_emod_eq_add (h : a % 360 = 180 + i) (hi : i < 90) : formulaAmp c a = 0x1000 - wordAt c i := by
  have hn : (norm a).toNat = 180 + i := by
    rw [norm_toNat]
    omega
  rw [formulaAmp_eq_norm, hn, if_neg (by omega), if_neg (by omega), if_pos (by omega), Nat.add_sub_cancel_left]

theorem formulaAmp_of_emod_eq_sub (h : a % 360 = 180 - i) (hi : i ≤ 90) : formulaAmp c a = 0x1000 - wordAt c i := by
  obtain rfl | hpos := Nat.eq_zero_or_pos i
  · exact formulaAmp_of_emod_eq_add c (by simpa using h) (by decide)
  · have hn : (norm a).toNat = 180 - i := by
      rw [norm_toNat]
      omega
    rw [formulaAmp_eq_norm, hn, if_neg (by omega), if_pos (by omega), Nat.sub_sub_self (by omega)]

theorem formulaAmp_of_neg_emod_eq (h : -a % 360 = i) (hi : i ≤ 90) : formulaAmp c a = wordAt c i := by
  obtain rfl | hpos := Nat.eq_zero_or_pos i
  · exact formulaAmp_of_emod_eq c (by omega) (by decide)
  · have hn : (norm a).toNat = 360 - i := by
      rw [norm_toNat]
      omega
    rw [formulaAmp_eq_norm, hn, if_neg (by omega), if_neg (by omega), if_neg (by omega), Nat.sub_sub_self (by omega)]

end

/-- Every degree is at most a quarter turn after, or before, a multiple of a half turn. -/
theorem exists_index_of_emod (a : Int) : ∃ i : Nat,
    (a % 360 = i ∧ i < 90) ∨ (a % 360 = 180 - i ∧ i ≤ 90) ∨ (a % 360 = 180 + i ∧ i < 90) ∨ (-a % 360 = i ∧ i ≤ 90) := by
  obtain h | h | h | h : a % 360 < 90 ∨ (90 ≤ a % 360 ∧ a % 360 < 180) ∨ (180 ≤ a % 360 ∧ a % 360 < 270) ∨
      270 ≤ a % 360 := by omega
  · exact ⟨(a % 360).toNat, .inl (by omega)⟩
  · exact ⟨(180 - a % 360).toNat, .inr (.inl (by omega))⟩
  · exact ⟨(a % 360 - 180).toNat, .inr (.inr (.inl (by omega)))⟩
  · exact ⟨(-a % 360).toNat, .inr (.inr (.inr (by omega)))⟩

/-- Half a turn on, the amplitude is mirrored about the middle of the range (R89). -/
theorem formulaAmp_add_half_turn (c : Config) (a : Int) : formulaAmp c a + formulaAmp c (a + 180) = 0x1000 := by
  obtain ⟨i, ⟨ha, hi⟩ | ⟨ha, hi⟩ | ⟨ha, hi⟩ | ⟨ha, hi⟩⟩ := exists_index_of_emod a
  · rw [formulaAmp_of_emod_eq c ha hi, formulaAmp_of_emod_eq_add (i := i) c (by omega) hi]
    exact Nat.add_sub_of_le (wordAt_le c i)
  · rw [formulaAmp_of_emod_eq_sub c ha hi, formulaAmp_of_neg_emod_eq (i := i) c (by omega) hi]
    exact Nat.sub_add_cancel (wordAt_le c i)
  · rw [formulaAmp_of_emod_eq_add c ha hi, formulaAmp_of_emod_eq (i := i) c (by omega) hi]
    exact Nat.sub_add_cancel (wordAt_le c i)
  · rw [formulaAmp_of_neg_emod_eq c ha hi, formulaAmp_of_emod_eq_sub (i := i) c (by omega) hi]
    exact Nat.add_sub_of_le (wordAt_le c i)

/-- A degree and its reflection read the same word, but for 90 and 270, where Q1 and Q3 both read word 90 (R89). -/
theorem formulaAmp_reflection (c : Config) (a : Int) (h : a % 180 ≠ 90) : formulaAmp c (360 - a) = formulaAmp c a := by
  obtain ⟨i, ⟨ha, hi⟩ | ⟨ha, hi⟩ | ⟨ha, hi⟩ | ⟨ha, hi⟩⟩ := exists_index_of_emod a
  · rw [formulaAmp_of_emod_eq c ha hi, formulaAmp_of_neg_emod_eq (i := i) c (by omega) (by omega)]
  · rw [formulaAmp_of_emod_eq_sub c ha hi, formulaAmp_of_emod_eq_add (i := i) c (by omega) (by omega)]
  · rw [formulaAmp_of_emod_eq_add c ha hi, formulaAmp_of_emod_eq_sub (i := i) c (by omega) (by omega)]
  · rw [formulaAmp_of_neg_emod_eq c ha hi, formulaAmp_of_emod_eq (i := i) c (by omega) (by omega)]

theorem toNat_of_lookup_eq_ok {c : Config} {a : Int} {v : Amp} (h : lookup c a = .ok v) :
    v.toNat = formulaAmp c a := by
  rw [(lookup_eq_ok_iff c a v).mp h, toNat_ofNat_formulaAmp]

theorem lookup_emod (c : Config) (a : Int) : lookup c (a % 360) = lookup c a := by
  simp [lookup, norm]

/-- Word 0 is the one default word that is 0, and word 90 the one that is 0x1000 (R72). -/
theorem wordAt_device_extremes (i : Nat) (h : i ≤ 90) :
    (wordAt Config.device i = 0 ↔ i = 0) ∧ (wordAt Config.device i = 0x1000 ↔ i = 90) := by
  have hwords : ∀ j : Fin 91, ((defaultTable j).val = 0 ↔ j.val = 0) ∧ ((defaultTable j).val = 0x1000 ↔ j.val = 90) := by
    decide
  have hword : wordAt Config.device i = (defaultTable ⟨i, by omega⟩).val := dif_pos (by omega)
  simpa [hword] using hwords ⟨i, by omega⟩

/-- Where the wave of the default table is at its two ends (R88). -/
theorem formulaAmp_device_extremes (a : Int) :
    (formulaAmp Config.device a = 0x1000 ↔ a % 360 = 180 ∨ a % 360 = 270) ∧
    (formulaAmp Config.device a = 0 ↔ a % 360 = 0 ∨ a % 360 = 90) := by
  obtain ⟨i, hindex⟩ := exists_index_of_emod a
  obtain ⟨hzero, hfull⟩ := wordAt_device_extremes i (by omega)
  have hle := wordAt_le Config.device i
  obtain ⟨ha, hi⟩ | ⟨ha, hi⟩ | ⟨ha, hi⟩ | ⟨ha, hi⟩ := hindex
  · rw [formulaAmp_of_emod_eq _ ha hi]
    omega
  · rw [formulaAmp_of_emod_eq_sub _ ha hi]
    omega
  · rw [formulaAmp_of_emod_eq_add _ ha hi]
    omega
  · rw [formulaAmp_of_neg_emod_eq _ ha hi]
    omega

/-- Settles O29, from the index each quadrant forms and the default words at the two ends. -/
theorem lookupRangeAndReachability : Obligations.LookupRangeAndReachability := by
  unfold Obligations.LookupRangeAndReachability
  refine ⟨fun a => romIndex_le (norm_lt a), exists_romIndex_norm_eq,
    fun d => ⟨romIndex_le_of_inQ0_or_inQ2, romIndex_mem_of_inQ1_or_inQ3⟩, fun c a v h => ?range, fun a v h => ?extremes⟩
  case range =>
    rw [toNat_of_lookup_eq_ok h]
    exact formulaAmp_le c a
  case extremes =>
    rw [toNat_of_lookup_eq_ok h]
    exact formulaAmp_device_extremes a

/-- Settles O30: the mirror identities are the half turn and the reflection together. -/
theorem lookupSymmetries : Obligations.LookupSymmetries := by
  unfold Obligations.LookupSymmetries
  refine ⟨fun c a => (lookup_emod c a).symm, fun c a v hv => ?formulas, fun c d v w hlo hhi hv hw => ?mirror,
    fun c d v w hlo hhi hv hw => ?backHalfTurn, fun c d v w hlo hhi hv hw => ?halfTurn, fun c d hlo hhi h90 h270 => ?reflection,
    fun c v w hv hw => ?quarters, fun v w hv hw => ?default⟩
  case formulas =>
    rw [toNat_of_lookup_eq_ok hv]
    exact ⟨fun h => formulaAmp_of_emod_eq c (by omega) h,
      fun h h' => formulaAmp_of_emod_eq_sub c (by omega) (by omega),
      fun h h' => formulaAmp_of_emod_eq_add c (by omega) (by omega),
      fun h h' => formulaAmp_of_neg_emod_eq c (by omega) (by omega)⟩
  case mirror =>
    have hhalf := formulaAmp_add_half_turn c d
    have hreflect := formulaAmp_reflection c (d + 180) (by omega)
    rw [show 360 - (d + 180) = 180 - d by ring] at hreflect
    rw [toNat_of_lookup_eq_ok hv, toNat_of_lookup_eq_ok hw]
    omega
  case backHalfTurn =>
    have hhalf := formulaAmp_add_half_turn c (d - 180)
    rw [sub_add_cancel] at hhalf
    rw [toNat_of_lookup_eq_ok hv, toNat_of_lookup_eq_ok hw]
    omega
  case halfTurn =>
    rw [toNat_of_lookup_eq_ok hv, toNat_of_lookup_eq_ok hw]
    exact formulaAmp_add_half_turn c d
  case reflection =>
    rw [lookup_eq_formulaAmp, lookup_eq_formulaAmp, formulaAmp_reflection c d (by omega)]
  case quarters =>
    rw [toNat_of_lookup_eq_ok hv, toNat_of_lookup_eq_ok hw]
    exact ⟨formulaAmp_of_emod_eq_sub c (by decide) le_rfl, formulaAmp_of_neg_emod_eq c (by decide) le_rfl⟩
  case default =>
    rw [toNat_of_lookup_eq_ok hv, toNat_of_lookup_eq_ok hw]
    exact ⟨(formulaAmp_device_extremes 90).2.mpr (.inr rfl), (formulaAmp_device_extremes 270).1.mpr (.inr rfl)⟩

end Sys2Proof.Machine
end

section
/-! The operations beside the elements they write: LKP's amplitude, the model's own fields, and the ports
(spec/43_output_driver.md rules R114, R125; log entries 1, 2, 6, 12). -/

namespace Sys2Proof.Machine

/-- LKP writes the amplitude of the whole degrees of `angle` and moves `phase` on (R114). -/
theorem exists_execWith_lkp (c : Config) (s : State) :
    ∃ t v, execWith c .lkp s = .next t ∧ t.elements = { s.elements with phase := 4#3, amp := some v } ∧
      v.toNat = formulaAmp c (s.angle.toNat / 1000 : Nat) ∧ v.toNat ≤ 0x1000 := by
  have hamp := toNat_ofNat_formulaAmp c (s.angle.toNat / 1000 : Nat)
  exact ⟨_, _, execLkpWith_eq c s, rfl, hamp, hamp.trans_le (formulaAmp_le c _)⟩

/-- Settles O16, at the defaults and under every configuration. -/
theorem lkpWritesLookupOfDegrees : Obligations.LkpWritesLookupOfDegrees := by
  unfold Obligations.LkpWritesLookupOfDegrees
  simp only [exec_eq_execWith_device]
  exact ⟨exists_execWith_lkp Config.device, exists_execWith_lkp⟩

/-- Settles O20: the named updates leave the model's own fields alone, and a datapath operation updates only `readout`. -/
theorem operationsLeaveModelFieldsAlone : Obligations.OperationsLeaveModelFieldsAlone := by
  unfold Obligations.OperationsLeaveModelFieldsAlone
  intro c i s t h
  cases i with
  | run =>
    obtain ⟨-, -, rfl⟩ | ⟨-, -, rfl⟩ | ⟨-, rfl⟩ | ⟨-, rfl⟩ | ⟨-, v, -, rfl⟩ | ⟨-, rfl⟩ | ⟨-, rfl⟩ | ⟨-, rfl⟩ :=
      execRunWith_next c s t h
    all_goals simp
  | enter =>
    obtain ⟨-, rfl⟩ | ⟨-, rfl⟩ := execEnterWith_next c s t h
    · simp
    · simp
  | lkp =>
    obtain ⟨v, -, rfl⟩ := execLkpWith_next c s t h
    simp
  | reset | tick | ack | adv | wr | ret =>
    obtain rfl := Host.Outcome.next.inj h
    simp
  | q0 | q1 | q2 | q3 | sample | norm | lookup | advance | curdeg =>
    obtain ⟨v, rfl⟩ := execWith_datapath_next (by simp [Instr.format]) h
    simp [Instr.format]

section
variable (c : Config) (s : State)

@[simp] theorem portsDuringRun_angleOut : (portsDuringRun c s).angleOut = s.angle := rfl

theorem portsDuringRun_dacData (h : s.phase = 4#3) : (portsDuringRun c s).dacData = s.amp := by
  simp [portsDuringRun, h]

/-- The resolver is combinational on `angle` (R125). -/
theorem portsDuringRun_ampOut :
    (portsDuringRun c s).ampOut = some (BitVec.ofNat 13 (formulaAmp c (s.angle.toNat / 1000 : Nat))) := by
  rw [portsDuringRun, portInteger_degOperand, curdeg_toNat, lookup_eq_formulaAmp]
  rfl

theorem portsDuringRun_romAddr_le : (portsDuringRun c s).romAddr.toNat ≤ 90 := romIndex_le (norm_lt _)

/-- The ROM holds a word at the address the resolver drives (R88). -/
theorem portsDuringRun_romData_ne_none : (portsDuringRun c s).romData ≠ none := by
  have haddr := portsDuringRun_romAddr_le c s
  have hread : (portsDuringRun c s).romData = (sample c (portsDuringRun c s).romAddr).toOption := rfl
  rw [hread, sample_of_lt c _ (by omega)]
  simp [Except.toOption]

end

/-- No legal code is a reserved one (R56). -/
theorem ne_of_five_lt {p q : Phase} (hp : 5 < p.toNat) (hq : q.toNat ≤ 5) : p ≠ q := by
  rintro rfl
  omega

/-- What each register behind a port holds after a RUN (R112 to R115). -/
theorem execRunWith_registers {c : Config} {s t : State} (h : execRunWith c s = .next t) :
    t.tickFlag = (if s.phase = 1#3 then false else s.tickFlag) ∧
    t.angle = (if s.phase = 2#3 then advance c s.angle else s.angle) ∧
    t.amp = (if s.phase = 3#3 then some (BitVec.ofNat 13 (formulaAmp c (s.angle.toNat / 1000 : Nat))) else s.amp) ∧
    t.dhr = (if s.phase = 4#3 then s.amp else s.dhr) := by
  obtain ⟨hp, -, rfl⟩ | ⟨hp, -, rfl⟩ | ⟨hp, rfl⟩ | ⟨hp, rfl⟩ | ⟨hp, v, hv, rfl⟩ | ⟨hp, rfl⟩ | ⟨hp, rfl⟩ | ⟨hp, rfl⟩ :=
    execRunWith_next c s t h
  case inr.inr.inr.inr.inl =>
    obtain rfl := (lookup_eq_ok_iff c _ v).mp hv
    simp [hp]
  case inr.inr.inr.inr.inr.inr.inr => simp [ne_of_five_lt hp]
  all_goals simp [hp]

/-- Settles O50: each strobe stands for one phase, and at that phase alone its register takes the port's value. -/
theorem portsCarryTheMicroOperations : Obligations.PortsCarryTheMicroOperations := by
  unfold Obligations.PortsCarryTheMicroOperations
  intro c s t h
  obtain ⟨hflag, hangle, hamp, hdhr⟩ := execRunWith_registers h
  simp only [← Bool.not_eq_true, tickAck_iff, adv_iff, dacWr_iff]
  refine ⟨fun hp => ?write, fun hp => hdhr.trans (if_neg hp), fun hp => ?ack, fun hp => hflag.trans (if_neg hp),
    fun hp => hangle.trans (if_pos hp), fun hp => hangle.trans (if_neg hp), fun hp => ?lookup, trivial, trivial, trivial,
    portsDuringRun_romAddr_le c s, portsDuringRun_romData_ne_none c s⟩
  case write =>
    rw [portsDuringRun_dacData c s hp]
    exact ⟨rfl, hdhr.trans (if_pos hp)⟩
  case ack => simp [hflag, hp]
  case lookup =>
    rw [portsDuringRun_ampOut]
    exact hamp.trans (if_pos hp)

end Sys2Proof.Machine
end

section
/-! The accumulator (spec/42_phase_accumulator.md rules R100 to R106): ADVANCE is addition modulo a revolution, so the
angle after any number of advances has a closed form, and the wraps count the whole revolutions gone through. -/

namespace Sys2Proof.Machine

/-- On operands in range the one conditional subtraction of R100 is the whole reduction. -/
theorem advanceNat_eq_mod {a n : Nat} (ha : a < 360000) (hn : n < 360000) : advanceNat a n = (a + n) % 360000 := by
  unfold advanceNat
  split <;> omega

section
variable (c : Config)

theorem advance_toNat_of_lt {a : Angle} (ha : a.toNat < 360000) :
    (advance c a).toNat = (a.toNat + c.step.val) % 360000 :=
  (advance_toNat c a).trans (advanceNat_eq_mod ha c.step.isLt)

theorem curdeg_le_curdeg_advance {a : Angle} (h : a.toNat + c.step.val < 360000) :
    (curdeg a).toNat ≤ (curdeg (advance c a)).toNat := by
  rw [curdeg_toNat, curdeg_toNat, advance_toNat_of_lt c (by omega), Nat.mod_eq_of_lt h]
  exact Nat.div_le_div_right (Nat.le_add_right _ _)

/-- The closed form of R103, from any angle in range. -/
theorem advance_iterate_toNat {a : Angle} (ha : a.toNat < 360000) (k : Nat) :
    ((advance c)^[k] a).toNat = (a.toNat + k * c.step.val) % 360000 := by
  induction k with
  | zero => simpa using (Nat.mod_eq_of_lt ha).symm
  | succ k ih =>
    have hlt : ((advance c)^[k] a).toNat < 360000 := ih ▸ Nat.mod_lt _ (by decide)
    rw [Function.iterate_succ_apply', advance_toNat_of_lt c hlt, ih, Nat.mod_add_mod, Nat.add_one_mul, Nat.add_assoc]

theorem advance_iterate_zero_toNat (k : Nat) : ((advance c)^[k] 0#19).toNat = k * c.step.val % 360000 := by
  simpa using advance_iterate_toNat c (a := 0#19) (by decide) k

/-- An angle in range comes back exactly when the advances add up to whole revolutions. -/
theorem advance_iterate_eq_self_iff {a : Angle} (ha : a.toNat < 360000) (n : Nat) :
    (advance c)^[n] a = a ↔ 360000 ∣ n * c.step.val := by
  rw [← BitVec.toNat_inj, advance_iterate_toNat c ha]
  omega

theorem wraps_advanceSum_iff (a : Angle) : wraps (advanceSum c a) = true ↔ 360000 ≤ a.toNat + c.step.val := by
  simp [wraps]

theorem wraps_iterate_iff (k : Nat) :
    wraps (advanceSum c ((advance c)^[k] 0#19)) = true ↔ 360000 ≤ k * c.step.val % 360000 + c.step.val := by
  rw [wraps_advanceSum_iff, advance_iterate_zero_toNat]

/-- Each wrap ends one whole revolution: the first `n` advances from 0 wrap once for each revolution they go through. -/
theorem countP_wraps (n : Nat) :
    (List.range n).countP (fun k => wraps (advanceSum c ((advance c)^[k] 0#19))) = n * c.step.val / 360000 := by
  induction n with
  | zero => simp
  | succ n ih =>
    rw [List.range_succ, List.countP_append, ih, List.countP_singleton, Nat.add_one_mul, Nat.add_div (by decide),
      Nat.div_eq_of_lt c.step.isLt, Nat.mod_eq_of_lt c.step.isLt, Nat.add_zero]
    simp only [wraps_iterate_iff]

end

/-- The advances that add up to whole revolutions are the multiples of the additive order of the step. -/
theorem dvd_mul_iff_div_gcd_dvd {m : Nat} (hm : m ≠ 0) (n a : Nat) : m ∣ n * a ↔ m / Nat.gcd m a ∣ n := by
  rw [← ZMod.addOrderOf_coe a hm, addOrderOf_dvd_iff_nsmul_eq_zero, nsmul_eq_mul, ← Nat.cast_mul,
    ZMod.natCast_eq_zero_iff]

theorem div_gcd_mul_div {m : Nat} (hm : 0 < m) (a : Nat) : m / Nat.gcd m a * a / m = a / Nat.gcd m a := by
  rw [Nat.div_mul_right_comm (Nat.gcd_dvd_left m a), Nat.mul_div_assoc m (Nat.gcd_dvd_right m a),
    Nat.mul_div_cancel_left _ hm]

/-- The number of advances that make a revolution is the least whose steps add up to one (R105). -/
theorem revolution_le_mul_iff {n : Nat} (hn : 0 < n) (k : Nat) : (360000 + n - 1) / n ≤ k ↔ 360000 ≤ n * k := by
  rw [← Nat.ceilDiv_eq_add_pred_div, ceilDiv_le_iff_le_mul hn]

/-- Settles O32: ADVANCE on its own shows the conditional subtraction, which on angles in range is the reduction. -/
theorem advanceIsAdditionModuloRevolution : Obligations.AdvanceIsAdditionModuloRevolution := by
  unfold Obligations.AdvanceIsAdditionModuloRevolution
  refine ⟨fun s => ?shown, advance_toNat, fun c a ha => ?inRange⟩
  case shown => exact ⟨_, _, rfl, rfl, shownWith_adder _ s, advance_toNat Config.device s.angle⟩
  case inRange =>
    rw [advance_toNat_of_lt c ha]
    exact ⟨rfl, Nat.mod_lt _ (by decide)⟩

/-- Settles O33: CURDEG on its own shows the whole degrees of `angle`. -/
theorem curdegTruncatesToDegrees : Obligations.CurdegTruncatesToDegrees := by
  unfold Obligations.CurdegTruncatesToDegrees
  refine ⟨fun s => ⟨_, _, rfl, rfl, shownWith_deg _ s, curdeg_toNat s.angle⟩, fun a ha => ?_⟩
  rw [curdeg_toNat]
  omega

/-- Settles O35, by induction on the number of advances; without a wrap ADVANCE only adds. -/
theorem advanceClosedForm : Obligations.AdvanceClosedForm := by
  unfold Obligations.AdvanceClosedForm
  exact ⟨advance_iterate_zero_toNat, fun c _ _ h => curdeg_le_curdeg_advance c h⟩

/-- Settles O36: the closed form of the angle turns each clause into arithmetic of `k * STEP` modulo a revolution. -/
theorem angleSequencePeriod : Obligations.AngleSequencePeriod := by
  unfold Obligations.AngleSequencePeriod
  intro c hstep
  refine ⟨fun k hwrap => ?noEarlierWrap, ?firstWrap, fun a n ha => ?period, ?wrapsPerPeriod⟩
  case noEarlierWrap =>
    have hsum := (wraps_iterate_iff c k).mp hwrap
    have hmod := Nat.mod_le (k * c.step.val) 360000
    rw [revolution_le_mul_iff hstep, Nat.mul_add_one, Nat.mul_comm]
    omega
  case firstWrap =>
    have hlast := revolution_le_mul_iff hstep
    generalize (360000 + c.step.val - 1) / c.step.val = m at hlast ⊢
    have hreach : 360000 ≤ c.step.val * m := (hlast m).mp le_rfl
    obtain ⟨k, rfl⟩ : ∃ k, m = k + 1 := Nat.exists_eq_succ_of_ne_zero (by rintro rfl; omega)
    have hshort : ¬ 360000 ≤ c.step.val * k := fun h => absurd ((hlast k).mpr h) (by omega)
    rw [Nat.mul_comm] at hshort
    rw [Nat.mul_comm, Nat.add_one_mul] at hreach
    rw [Nat.add_sub_cancel, wraps_iterate_iff, Nat.mod_eq_of_lt (by omega)]
    exact hreach
  case period => rw [advance_iterate_eq_self_iff c ha, dvd_mul_iff_div_gcd_dvd (by decide)]
  case wrapsPerPeriod => rw [countP_wraps, div_gcd_mul_div (by decide)]

section
variable {c : Config}

theorem advance_eq_self (hstep : c.step.val = 0) {a : Angle} (ha : a.toNat < 360000) : advance c a = a := by
  rw [← BitVec.toNat_inj, advance_toNat_of_lt c ha, hstep, Nat.add_zero, Nat.mod_eq_of_lt ha]

/-- RUN writes `angle` by ADV only, which adds nothing when STEP is 0 (R106). -/
theorem execRunWith_keeps_angle_zero {s t : State} (hstep : c.step.val = 0) (hangle : s.angle = 0#19)
    (h : execRunWith c s = .next t) : t.angle = 0#19 := by
  obtain ⟨-, hrun, -, -⟩ := execRunWith_registers h
  rw [hrun, hangle, advance_eq_self hstep (by decide), ite_self]

end

theorem formulaAmp_zero (c : Config) : formulaAmp c 0 = (c.table 0).val :=
  formulaAmp_of_emod_eq c (i := 0) rfl (by decide)

/-- Settles O37: RESET writes angle 0, TICK leaves the angle, and RUN's ADV adds 0 to it. -/
theorem stepZeroNeverMovesTheAngle : Obligations.StepZeroNeverMovesTheAngle := by
  unfold Obligations.StepZeroNeverMovesTheAngle
  intro c hstep
  refine ⟨fun a => advance_eq_self hstep, fun s t hangle h => ?everyStep, fun s t hangle hphase h => ?lkp⟩
  case everyStep =>
    obtain ⟨-, rfl⟩ | ⟨-, rfl⟩ | ⟨-, hrun⟩ := stepWith_next c s t h
    · simp
    · simpa using hangle
    · exact execRunWith_keeps_angle_zero hstep (by simpa using hangle) hrun
  case lkp =>
    obtain ⟨-, -, hamp, -⟩ := execRunWith_registers h
    rw [hamp, if_pos hphase, hangle]
    exact congrArg (fun n => some (BitVec.ofNat 13 n)) (formulaAmp_zero c)

end Sys2Proof.Machine
end

section
/-! The on-time run (spec/43_output_driver.md rules R120, R123): what OnTimeInv adds to HistoryInv is kept by every event
that is on time, so it holds at the end of every on-time run. -/

namespace Sys2Proof.Machine

theorem quiescent_iff (s : State) : quiescent s = true ↔ s.phase = 0#3 ∧ s.tickFlag = false := by
  simp [quiescent, ← BitVec.toNat_inj]

/-- The sample register holds the output written last, or nothing before the first write (R17, R123). -/
theorem HistoryInv.dhr_eq_outputAt {c : Config} {s : State} (h : HistoryInv c s) :
    s.dhr = if written s = 0 then none else some (outputAt c (written s)) := by
  rw [h.dhr_eq, h.writes_eq]
  cases written s with
  | zero => rfl
  | succ n => simp [List.range_succ]

theorem onTimeInv_resetElements (c : Config) (s : State) (hinit : c.initTickFlag = false) :
    OnTimeInv c (resetElements c s) where
  base := historyInv_resetElements c s
  tick_each_ack := by simp [hinit]
  pending_early := by simp
  latches_eq := by simp

namespace OnTimeInv

variable {c : Config} {s : State}

theorem after_consumeEvent (h : OnTimeInv c s) : OnTimeInv c (consumeEvent s) := by
  obtain ⟨ws, n, hs⟩ := consumeEvent_eq s
  have hbase := h.base.after_consumeEvent
  rw [hs] at hbase ⊢
  exact { h with base := hbase }

/-- Between ACK and RET no tick is pending: on time, the next one comes when the service is over. -/
theorem not_pending (h : OnTimeInv c s) (hp : 2 ≤ s.phase.toNat) : s.tickFlag ≠ true := fun hflag => by
  have hearly := h.pending_early hflag
  omega

/-- In a quiescent state every tick is served, so TICK latches the output written for the tick before it. -/
theorem dhr_of_quiescent (h : OnTimeInv c s) (hquiet : quiescent s = true) :
    s.dhr = if ticks s.history = 0 then none else some (outputAt c (ticks s.history)) := by
  obtain ⟨hphase, hflag⟩ := (quiescent_iff s).mp hquiet
  have hserved : written s = ticks s.history := by
    rw [written_of_no_write_owed (by simp [hphase]), h.tick_each_ack, hflag]
    rfl
  rw [← hserved]
  exact h.base.dhr_eq_outputAt

theorem after_tick (h : OnTimeInv c s) (hquiet : quiescent s = true) :
    OnTimeInv c (setTickFlag (emit (.latch s.dhr) (emit .tick (latchOutput s)))) where
  base := h.base.after_tick
  tick_each_ack := by
    have hserved := h.tick_each_ack
    rw [((quiescent_iff s).mp hquiet).2] at hserved
    simpa using hserved
  pending_early := by simp [((quiescent_iff s).mp hquiet).1]
  latches_eq := by simp [List.range_succ, h.latches_eq, h.dhr_of_quiescent hquiet]

theorem after_enter (h : OnTimeInv c s) (hp : s.phase = 0#3) (hflag : s.tickFlag = true) : OnTimeInv c (takeTick s) :=
  { h with
    base := h.base.after_enter hp hflag
    pending_early := by simp }

/-- ACK acknowledges the one tick that is pending. -/
theorem after_ack (h : OnTimeInv c s) (hp : s.phase = 1#3) :
    OnTimeInv c (setPhase 2#3 (emit .ack (clearTickFlag s))) where
  base := h.base.after_ack hp
  tick_each_ack := by
    have hpending := h.tick_each_ack
    rw [h.base.base.pending_before_ack (by simp [hp])] at hpending
    simpa using hpending
  pending_early := by simp
  latches_eq := by simpa using h.latches_eq

theorem after_adv (h : OnTimeInv c s) (hp : s.phase = 2#3) :
    OnTimeInv c (setPhase 3#3 (writeAngle (advance c s.angle) s)) :=
  { h with
    base := h.base.after_adv hp
    pending_early := fun hflag => absurd hflag (h.not_pending (by simp [hp])) }

theorem after_lkp (h : OnTimeInv c s) (hp : s.phase = 3#3) :
    OnTimeInv c (setPhase 4#3 (writeAmp (BitVec.ofNat 13 (formulaAmp c (s.angle.toNat / 1000 : Nat))) s)) :=
  { h with
    base := h.base.after_lkp hp
    pending_early := fun hflag => absurd hflag (h.not_pending (by simp [hp])) }

theorem after_wr (h : OnTimeInv c s) (hp : s.phase = 4#3) : OnTimeInv c (setPhase 5#3 (memWriteOut s.amp s)) where
  base := h.base.after_wr hp
  tick_each_ack := by simpa using h.tick_each_ack
  pending_early := fun hflag => absurd hflag (h.not_pending (by simp [hp]))
  latches_eq := by simpa using h.latches_eq

theorem after_ret (h : OnTimeInv c s) (hp : s.phase = 5#3) : OnTimeInv c (returnFromTick s) :=
  { h with
    base := h.base.after_ret hp
    pending_early := by simp }

end OnTimeInv

section
variable {c : Config} {s t : State}

theorem onTimeInv_execRunWith (h : OnTimeInv c s) (hrun : execRunWith c s = .next t) : OnTimeInv c t := by
  obtain ⟨hp, hflag, rfl⟩ | ⟨-, -, rfl⟩ | ⟨hp, rfl⟩ | ⟨hp, rfl⟩ | ⟨hp, v, hv, rfl⟩ | ⟨hp, rfl⟩ | ⟨hp, rfl⟩ |
    ⟨-, rfl⟩ := execRunWith_next c s t hrun
  · exact h.after_enter hp hflag
  · exact h
  · exact h.after_ack hp
  · exact h.after_adv hp
  · obtain rfl := (lookup_eq_ok_iff c _ v).mp hv
    exact h.after_lkp hp
  · exact h.after_wr hp
  · exact h.after_ret hp
  · exact h

theorem onTimeInv_stepWith (hinit : c.initTickFlag = false) (h : OnTimeInv c s) (hevent : OnTimeEvent s)
    (hstep : stepWith c s = .next t) : OnTimeInv c t := by
  obtain ⟨-, rfl⟩ | ⟨he, rfl⟩ | ⟨-, hrun⟩ := stepWith_next c s t hstep
  · exact onTimeInv_resetElements c _ hinit
  · simpa using h.after_consumeEvent.after_tick (by simpa [quiescent] using hevent he)
  · exact onTimeInv_execRunWith h.after_consumeEvent hrun

theorem onTimeInv_runWith {n : Nat} (hinit : c.initTickFlag = false) (h : OnTimeInv c s) (htime : OnTimeFor c n s)
    (hrun : runWith c n s = .next t) : OnTimeInv c t := by
  induction n generalizing s with
  | zero =>
    obtain rfl := Host.Outcome.next.inj hrun
    exact h
  | succ n ih =>
    obtain ⟨hevent, hrest⟩ := htime
    obtain ⟨u, hstep, hrun⟩ := runWith_succ_next c n s t hrun
    exact ih (onTimeInv_stepWith hinit h hevent hstep) (hrest u hstep) hrun

end

/-- Settles O42, by induction on the number of steps: each event that is on time keeps the invariant. -/
theorem onTimeRunLatchesEveryWrite : Obligations.OnTimeRunLatchesEveryWrite := by
  unfold Obligations.OnTimeRunLatchesEveryWrite
  exact fun c n s t => onTimeInv_runWith

/-! Frames are on time: their RUNs are no TICK, and each TICK finds the service before it finished. -/

section
variable (c : Config) {s t : State}

/-- The word presented first is the step's event; the others are still to come after it. -/
theorem stepWith_present_cons {w : EvWord} (ws : List EvWord) (h : execWith c (decodeEvent w) s = .next t) :
    stepWith c (present (w :: ws) s) = .next (present ws t) := by
  calc stepWith c (present (w :: ws) s)
      = execWith c (decodeEvent w) (present ws s) := rfl
    _ = .next (present ws t) := by rw [execWith_decodeEvent_present, h]; rfl

theorem onTimeFor_present_cons {w : EvWord} {ws : List EvWord} (hevent : eventOf w = .tick → quiescent s = true)
    (hexec : execWith c (decodeEvent w) s = .next t) (hrest : OnTimeFor c ws.length (present ws t)) :
    OnTimeFor c (w :: ws).length (present (w :: ws) s) := by
  refine ⟨hevent, fun u hu => ?_⟩
  obtain rfl := Host.Outcome.next.inj ((stepWith_present_cons c ws hexec).symm.trans hu)
  exact hrest

/-- Words that are no TICK are on time wherever they stand. -/
theorem onTimeFor_present_append {ws vs : List EvWord} (hws : ∀ w ∈ ws, eventOf w ≠ .tick)
    (hrun : runSchedule c ws s = .next t) (hrest : OnTimeFor c vs.length (present vs t)) :
    OnTimeFor c (ws ++ vs).length (present (ws ++ vs) s) := by
  induction ws generalizing s with
  | nil =>
    obtain rfl := Host.Outcome.next.inj hrun
    exact hrest
  | cons w ws ih =>
    obtain ⟨hw, hws⟩ := List.forall_mem_cons.mp hws
    obtain ⟨u, hu⟩ := exists_execWith_decodeEvent_next c s w
    rw [runSchedule_cons c ws hu] at hrun
    exact onTimeFor_present_cons c (fun he => absurd he hw) hu (ih hws hrun)

theorem eventOf_ne_tick_of_mem_serviceWords : ∀ w ∈ serviceWords, eventOf w ≠ .tick := by decide

theorem onTimeFor_framesWords (n : Nat) (hquiet : quiescent s = true) :
    OnTimeFor c (framesWords n).length (present (framesWords n) s) := by
  induction n generalizing s with
  | zero => trivial
  | succ n ih =>
    have hidle : s.phase = 0#3 := ((quiescent_iff s).mp hquiet).1
    have hservice : runSchedule c serviceWords (ticked s) = .next (serviced c (ticked s)) :=
      runSchedule_serviceWords c hidle rfl
    exact onTimeFor_present_cons c (fun _ => hquiet) (execTickWith_eq c s)
      (onTimeFor_present_append c eventOf_ne_tick_of_mem_serviceWords hservice (ih rfl))

end

/-- Settles O43: the frames are an on-time run, so the invariants say what `k` ticks and `k` services leave behind. -/
theorem framesProduceTheOutputSequence : Obligations.FramesProduceTheOutputSequence := by
  unfold Obligations.FramesProduceTheOutputSequence
  intro c k hinit
  have hquiet : quiescent (State.resetWith c) = true := (quiescent_iff _).mpr ⟨rfl, hinit⟩
  have htime := onTimeFor_framesWords c k hquiet
  obtain ⟨t, hrun, hphase, hflag, hticks, hacks⟩ := runSchedule_framesWords c k (State.resetWith c) rfl hinit
  have hreset : OnTimeInv c (present (framesWords k) (State.resetWith c)) :=
    onTimeInv_resetElements c (present (framesWords k) (State.resetWith c)) hinit
  have hinv : OnTimeInv c t := onTimeInv_runWith hinit hreset htime hrun
  replace hticks : ticks t.history = k := by simpa [State.resetWith] using hticks
  replace hacks : acks t.history = k := by simpa [State.resetWith] using hacks
  refine ⟨htime, t, hrun, (quiescent_iff t).mpr ⟨hphase, hflag⟩, ?angle, ?writes, ?latches⟩
  case angle => rw [hinv.base.angle_eq, advances_of_adv_not_next (by simp [hphase]), hacks]
  case writes => rw [hinv.base.writes_eq, written_of_no_write_owed (by simp [hphase]), hacks]
  case latches => rw [hinv.latches_eq, hticks]

end Sys2Proof.Machine
end

section
/-! A service among ticks (spec/43_output_driver.md rules R119, R121, R122): undisturbed, after several ticks, and with a
tick in its midst. -/

namespace Sys2Proof.Machine

/-- The sample of an angle, by the document's formulas (R114). -/
def sampleOf (c : Config) (a : Angle) : Amp := BitVec.ofNat 13 (formulaAmp c (a.toNat / 1000 : Nat))

section
variable (c : Config) (s : State)

theorem lookup_curdeg (a : Angle) : lookup c ((curdeg a).toNat : Int) = .ok (sampleOf c a) := by
  rw [curdeg_toNat]
  exact lookup_eq_formulaAmp c _

@[simp] theorem ticked_history : (ticked s).history = s.history ++ [.tick, .latch s.dhr] := rfl

@[simp] theorem serviced_dhr : (serviced c s).dhr = some (sampleOf c (advance c s.angle)) := rfl

@[simp] theorem serviced_history :
    (serviced c s).history = s.history ++ [.ack, .wr (some (sampleOf c (advance c s.angle)))] := rfl

theorem elements_serviced :
    (serviced c s).elements =
      ⟨advance c s.angle, 0#3, some (sampleOf c (advance c s.angle)), false, some (sampleOf c (advance c s.angle)), s.dor,
        s.history ++ [.ack, .wr (some (sampleOf c (advance c s.angle)))]⟩ := rfl

/-! TICKs in a row (R121 b). -/

theorem runSchedule_replicate_tick (n : Nat) :
    runSchedule c (List.replicate n 0b01#2) s = .next (ticked^[n] s) := by
  induction n generalizing s with
  | zero => rfl
  | succ n ih =>
    rw [List.replicate_succ, runSchedule_tick c _ (execTickWith_eq c s)]
    exact ih (ticked s)

/-- The driver sees nothing of any number of ticks but the flag (R117). -/
theorem iterate_ticked_frame (n : Nat) :
    (ticked^[n] s).phase = s.phase ∧ (ticked^[n] s).angle = s.angle ∧
      ticks (ticked^[n] s).history = ticks s.history + n ∧ acks (ticked^[n] s).history = acks s.history := by
  induction n with
  | zero => exact ⟨rfl, rfl, rfl, rfl⟩
  | succ n ih =>
    obtain ⟨hphase, hangle, hticks, hacks⟩ := ih
    rw [Function.iterate_succ_apply']
    exact ⟨hphase, hangle, by simp [hticks, Nat.add_assoc], by simp [hacks]⟩

end

/-- Settles O44: the six RUNs of the service, and LOOKUP's answer at the advanced angle. -/
theorem serviceIsOneAdvanceLookupWrite : Obligations.ServiceIsOneAdvanceLookupWrite := by
  unfold Obligations.ServiceIsOneAdvanceLookupWrite
  exact fun c s hidle hflag =>
    ⟨_, _, runSchedule_serviceWords c hidle hflag, lookup_curdeg c _, elements_serviced c s⟩

/-- Settles O46: the ticks leave one flag set, and the service acknowledges it. -/
theorem mergedTicksAdvanceOnce : Obligations.MergedTicksAdvanceOnce := by
  unfold Obligations.MergedTicksAdvanceOnce
  intro c s n hidle
  obtain ⟨hphase, hangle, hticks, hacks⟩ := iterate_ticked_frame s (n + 1)
  have hflag : (ticked^[n + 1] s).tickFlag = true := by rw [Function.iterate_succ_apply']; rfl
  refine ⟨serviced c (ticked^[n + 1] s), ?run, rfl, congrArg (advance c) hangle, ?ticks, ?acks⟩
  case run =>
    rw [runSchedule_append c _ _ (runSchedule_replicate_tick c s (n + 1))]
    exact runSchedule_serviceWords c (hphase.trans hidle) hflag
  case ticks =>
    rw [serviced_history, ticks_append, hticks]
    rfl
  case acks =>
    rw [serviced_history, acks_append, hacks]
    rfl

/-! A service under ticks (R122). -/

theorem isServicing_iff (s : State) : isServicing s = true ↔ 1 ≤ s.phase.toNat ∧ s.phase.toNat ≤ 5 := by
  simp [isServicing]

/-- In a service every RUN moves the driver on, the last one to Idle. -/
theorem execRunWith_phase_of_isServicing {c : Config} {s t : State} (hserving : isServicing s = true)
    (h : execRunWith c s = .next t) : t.phase.toNat = (s.phase.toNat + 1) % 6 := by
  have hidle := phase_ne_zero_of_isServicing hserving
  have hlegal := ((isServicing_iff s).mp hserving).2
  obtain ⟨hp, -, rfl⟩ | ⟨hp, -, rfl⟩ | ⟨hp, rfl⟩ | ⟨hp, rfl⟩ | ⟨hp, v, -, rfl⟩ | ⟨hp, rfl⟩ | ⟨hp, rfl⟩ | ⟨hp, rfl⟩ :=
    execRunWith_next c s t h
  case inl | inr.inl => exact absurd hp hidle
  case inr.inr.inr.inr.inr.inr.inr => omega
  all_goals simp [hp]

/-- TICKs and RUNs of a service, with no RUN left once the driver is back in Idle. -/
theorem runSchedule_phase_of_ticks_and_runs (c : Config) (ws : List EvWord) (s : State)
    (hws : ∀ w ∈ ws, w = 0b00#2 ∨ w = 0b01#2) (hcount : s.phase.toNat + ws.count 0b00#2 ≤ 6)
    (hserving : isServicing s = true ∨ s.phase = 0#3 ∧ ws.count 0b00#2 = 0) :
    ∃ t, runSchedule c ws s = .next t ∧ t.phase.toNat = (s.phase.toNat + ws.count 0b00#2) % 6 := by
  induction ws generalizing s with
  | nil =>
    refine ⟨s, rfl, ?_⟩
    obtain hserving | ⟨hidle, -⟩ := hserving
    · have hlegal := ((isServicing_iff s).mp hserving).2
      rw [List.count_nil, Nat.add_zero, Nat.mod_eq_of_lt (by omega)]
    · simp [hidle]
  | cons w ws ih =>
    obtain ⟨rfl | rfl, hrest⟩ := List.forall_mem_cons.mp hws
    case inl =>
      rw [List.count_cons_self] at hcount hserving ⊢
      replace hserving : isServicing s = true := hserving.resolve_right fun h => absurd h.2 (Nat.succ_ne_zero _)
      obtain ⟨u, hu⟩ := exists_execRunWith_next c s
      have hphase := execRunWith_phase_of_isServicing hserving hu
      have hbounds := (isServicing_iff s).mp hserving
      have hnext : isServicing u = true ∨ u.phase = 0#3 ∧ ws.count 0b00#2 = 0 := by
        rw [isServicing_iff, ← BitVec.toNat_inj, BitVec.toNat_ofNat]
        omega
      obtain ⟨t, hrun, ht⟩ := ih u hrest (by omega) hnext
      exact ⟨t, (runSchedule_cons c (w := 0b00#2) ws hu).trans hrun, by omega⟩
    case inr =>
      rw [List.count_cons_of_ne (by decide)] at hcount hserving ⊢
      obtain ⟨t, hrun, ht⟩ := ih (ticked s) hrest hcount hserving
      exact ⟨t, (runSchedule_tick c ws (execTickWith_eq c s)).trans hrun, ht⟩

/-- Settles O45, by induction on the words. -/
theorem serviceReachesIdleUnderAnyTicks : Obligations.ServiceReachesIdleUnderAnyTicks := by
  unfold Obligations.ServiceReachesIdleUnderAnyTicks
  exact fun c s ws hserving hws hcount => runSchedule_phase_of_ticks_and_runs c ws s hws hcount (.inl hserving)

/-! The end of a service that a tick has interrupted (R121 a). -/

/-- The angle of the service under way after ACK: ADV has still to run when `phase` is 2. -/
def serviceAngle (c : Config) (s : State) : Angle := if s.phase = 2#3 then advance c s.angle else s.angle

/-- The sample the service under way writes: LKP has left it in `amp` when `phase` is 4. -/
def serviceSample (c : Config) (s : State) : Option Amp :=
  if s.phase = 4#3 then s.amp else some (sampleOf c (serviceAngle c s))

/-- The state after the RUNs that are left of a service between ACK and WR; the flag stays as it is. -/
def serviceFinished (c : Config) (s : State) : State :=
  { s with
    angle := serviceAngle c s
    phase := 0#3
    amp := serviceSample c s
    dhr := serviceSample c s
    history := s.history ++ [.wr (serviceSample c s)] }

@[simp] theorem serviceFinished_angle (c : Config) (s : State) : (serviceFinished c s).angle = serviceAngle c s := rfl

@[simp] theorem serviceFinished_history (c : Config) (s : State) :
    (serviceFinished c s).history = s.history ++ [.wr (serviceSample c s)] := rfl

/-! A tick moves neither the angle nor the sample of the service it interrupts. -/

@[simp] theorem serviceAngle_ticked (c : Config) (s : State) : serviceAngle c (ticked s) = serviceAngle c s := rfl

@[simp] theorem serviceSample_ticked (c : Config) (s : State) : serviceSample c (ticked s) = serviceSample c s := rfl

section
variable (c : Config) {s : State}

theorem runSchedule_from_wr (hp : s.phase = 4#3) :
    runSchedule c (List.replicate 2 0b00#2) s = .next (serviceFinished c s) := by
  calc runSchedule c (List.replicate 2 0b00#2) s
      = runSchedule c [0b00#2] (setPhase 5#3 (memWriteOut s.amp s)) :=
        runSchedule_run c .wr _ (by rw [hp]; rfl) rfl
    _ = runSchedule c [] _ := runSchedule_run c .ret [] rfl rfl
    _ = .next (serviceFinished c s) := by
        simp [serviceFinished, serviceSample, serviceAngle, hp, returnFromTick, setPhase, memWriteOut, emit]

theorem runSchedule_from_lkp (hp : s.phase = 3#3) :
    runSchedule c (List.replicate 3 0b00#2) s = .next (serviceFinished c s) := by
  calc runSchedule c (List.replicate 3 0b00#2) s
      = runSchedule c (List.replicate 2 0b00#2) (setPhase 4#3 (writeAmp (sampleOf c s.angle) s)) :=
        runSchedule_run c .lkp _ (by rw [hp]; rfl) (execLkpWith_eq c s)
    _ = .next (serviceFinished c (setPhase 4#3 (writeAmp (sampleOf c s.angle) s))) := runSchedule_from_wr c rfl
    _ = .next (serviceFinished c s) := by
        simp [serviceFinished, serviceSample, serviceAngle, hp, setPhase, writeAmp]

theorem runSchedule_from_adv (hp : s.phase = 2#3) :
    runSchedule c (List.replicate 4 0b00#2) s = .next (serviceFinished c s) := by
  calc runSchedule c (List.replicate 4 0b00#2) s
      = runSchedule c (List.replicate 3 0b00#2) (setPhase 3#3 (writeAngle (advance c s.angle) s)) :=
        runSchedule_run c .adv _ (by rw [hp]; rfl) rfl
    _ = .next (serviceFinished c (setPhase 3#3 (writeAngle (advance c s.angle) s))) := runSchedule_from_lkp c rfl
    _ = .next (serviceFinished c s) := by
        simp [serviceFinished, serviceSample, serviceAngle, hp, setPhase, writeAngle]

/-- The RUNs left between ACK and WR finish the service. -/
theorem runSchedule_serviceFinished (hlo : 2 ≤ s.phase.toNat) (hhi : s.phase.toNat ≤ 4) :
    runSchedule c (List.replicate (6 - s.phase.toNat) 0b00#2) s = .next (serviceFinished c s) := by
  obtain hp | hp | hp : s.phase = 2#3 ∨ s.phase = 3#3 ∨ s.phase = 4#3 := by
    simp only [← BitVec.toNat_inj, BitVec.toNat_ofNat]
    omega
  · rw [hp]
    exact runSchedule_from_adv c hp
  · rw [hp]
    exact runSchedule_from_lkp c hp
  · rw [hp]
    exact runSchedule_from_wr c hp

/-- A tick between ACK and WR, the rest of the service, the next service and its tick, part by part. -/
theorem runSchedule_early_tick (hlo : 2 ≤ s.phase.toNat) (hhi : s.phase.toNat ≤ 4) :
    runSchedule c ([0b01#2] ++ List.replicate (6 - s.phase.toNat) 0b00#2 ++ serviceWords ++ [0b01#2]) s =
      .next (ticked (serviced c (serviceFinished c (ticked s)))) := by
  have htick : ∀ u, runSchedule c [0b01#2] u = .next (ticked u) := fun u => runSchedule_tick c [] (execTickWith_eq c u)
  have hrest : runSchedule c (List.replicate (6 - s.phase.toNat) 0b00#2) (ticked s) =
      .next (serviceFinished c (ticked s)) := runSchedule_serviceFinished c (s := ticked s) hlo hhi
  have hfirst := (runSchedule_append c _ _ (htick s)).trans hrest
  have hsecond := (runSchedule_append c _ serviceWords hfirst).trans (runSchedule_serviceWords c rfl rfl)
  exact (runSchedule_append c _ _ hsecond).trans (htick _)

end

/-- Settles O47: the first tick latches the old `dhr` and leaves the flag set, so a second service overwrites the sample. -/
theorem earlyTickDropsASample : Obligations.EarlyTickDropsASample := by
  unfold Obligations.EarlyTickDropsASample
  intro c s hlo hhi _
  refine ⟨_, serviceSample c s, _, serviceAngle c s, runSchedule_early_tick c hlo hhi, rfl, fun hp => if_pos hp,
    fun hp => ⟨_, lookup_curdeg c _, if_neg hp⟩, lookup_curdeg c _, rfl, rfl, ?writes, ?latches, ?ticks, ?acks⟩
  all_goals simp

end Sys2Proof.Machine
end

section
/-! The single events and micro-operations with their frames (spec/43_output_driver.md rules R111 to R117). -/

namespace Sys2Proof.Machine

/-- Settles O12. -/
theorem tickLatchesAndSetsFlag : Obligations.TickLatchesAndSetsFlag := by
  unfold Obligations.TickLatchesAndSetsFlag
  exact fun s => ⟨ticked s, execTickWith_eq Config.device s, rfl⟩

/-- A move of the driver is made only where the driver is enabled (R110, R111). -/
theorem driverEnabled_of_moves {c : Config} {s t : State} (h : Moves c .run s t) : driverEnabled s = true := by
  cases h with
  | enter _ hp hflag => simp [driverEnabled, hp, hflag]
  | ack _ hp | adv _ _ hp | lkp _ _ hp | wr _ hp | ret _ hp => simp [driverEnabled, hp]

/-- Settles O13: the Idle driver without a tick is not enabled. -/
theorem enterTakesPendingTick : Obligations.EnterTakesPendingTick := by
  unfold Obligations.EnterTakesPendingTick
  refine ⟨fun s hflag => ⟨takeTick s, execEnterWith_of_tick Config.device s hflag, rfl⟩, fun c s t hp hflag hmove => ?_⟩
  have hdisabled := (driverEnabled_eq_false_iff s).mpr (.inl ⟨hp, hflag⟩)
  exact Bool.false_ne_true (hdisabled.symm.trans (driverEnabled_of_moves hmove))

/-- Settles O14. -/
theorem ackClearsTickFlag : Obligations.AckClearsTickFlag := by
  unfold Obligations.AckClearsTickFlag
  exact fun s => ⟨setPhase 2#3 (emit .ack (clearTickFlag s)), rfl, rfl⟩

theorem exists_execWith_adv (c : Config) (s : State) :
    ∃ t, execWith c .adv s = .next t ∧ t.elements = { s.elements with phase := 3#3, angle := t.angle } ∧
      t.angle.toNat = advanceNat s.angle.toNat c.step.val :=
  ⟨setPhase 3#3 (writeAngle (advance c s.angle) s), rfl, rfl, advance_toNat c s.angle⟩

/-- Settles O15, at the defaults and under every configuration. -/
theorem advWritesAdvancedAngle : Obligations.AdvWritesAdvancedAngle := by
  unfold Obligations.AdvWritesAdvancedAngle
  exact ⟨exists_execWith_adv Config.device, exists_execWith_adv⟩

/-- Settles O17. -/
theorem wrStoresAmplitudeUnchanged : Obligations.WrStoresAmplitudeUnchanged := by
  unfold Obligations.WrStoresAmplitudeUnchanged
  intro s v hamp
  rw [← hamp]
  exact ⟨setPhase 5#3 (memWriteOut s.amp s), rfl, rfl⟩

/-- Settles O19. -/
theorem retReturnsToIdle : Obligations.RetReturnsToIdle := by
  unfold Obligations.RetReturnsToIdle
  exact fun s => ⟨returnFromTick s, rfl, rfl⟩

end Sys2Proof.Machine
end

section
/-! RESET and the first ticks after it (spec/70_reset_and_hazards.md rules R160, R162). -/

namespace Sys2Proof.Machine

theorem elements_resetElements (c : Config) (s : State) :
    (resetElements c s).elements = ⟨0#19, 0#3, none, c.initTickFlag, none, none, []⟩ := rfl

theorem resetElements_idem (c : Config) (s : State) : resetElements c (resetElements c s) = resetElements c s := rfl

theorem execResetWith_eq (c : Config) (s : State) : execResetWith c s = .next (resetElements c s) := rfl

/-- Settles O11: RESET overwrites every element, so a second RESET finds the values it writes. -/
theorem resetSetsEveryElement : Obligations.ResetSetsEveryElement := by
  unfold Obligations.ResetSetsEveryElement
  refine ⟨fun s => ⟨_, execResetWith_eq Config.device s, elements_resetElements Config.device s⟩,
    fun c s => ⟨_, execResetWith_eq c s, ?_, elements_resetElements c s⟩⟩
  rw [execWith_reset, execResetWith_eq, resetElements_idem]

section
variable (c : Config)

/-- The sample after `k` advances from RESET is `V_k` (R123). -/
theorem sampleOf_iterate_advance (k : Nat) : sampleOf c ((advance c)^[k] 0#19) = outputAt c k := by
  rw [sampleOf, advance_iterate_zero_toNat, outputAt]

/-! The first service after RESET, whatever ticks came before it: it starts at angle 0. -/

variable {s : State}

theorem serviced_angle_toNat_of_zero (h : s.angle = 0#19) : (serviced c s).angle.toNat = c.step.val := by
  calc (serviced c s).angle.toNat = ((advance c)^[1] 0#19).toNat := by rw [← h]; rfl
    _ = 1 * c.step.val % 360000 := advance_iterate_zero_toNat c 1
    _ = c.step.val := by rw [Nat.one_mul, Nat.mod_eq_of_lt c.step.isLt]

theorem serviced_dhr_of_zero (h : s.angle = 0#19) : (serviced c s).dhr = some (outputAt c 1) := by
  rw [serviced_dhr, h]
  exact congrArg some (sampleOf_iterate_advance c 1)

theorem serviced_history_of_zero (h : s.angle = 0#19) :
    (serviced c s).history = s.history ++ [.ack, .wr (some (outputAt c 1))] := by
  rw [serviced_history, ← serviced_dhr, serviced_dhr_of_zero c h]

end

/-- Settles O48: with the flag clear the frame's tick latches the empty `dhr`, and the tick after it the first sample;
with the flag set the service runs without a tick, and the first tick already finds that sample. -/
theorem firstTicksAfterReset : Obligations.FirstTicksAfterReset := by
  unfold Obligations.FirstTicksAfterReset
  intro c
  have htick (s : State) : runSchedule c [0b01#2] s = .next (ticked s) := runSchedule_replicate_tick c s 1
  refine ⟨fun _ => ?flagClear, fun hset => ?flagSet⟩
  case flagClear =>
    have hframe := runSchedule_frameWords c (s := State.resetWith c) rfl
    have hhistory : (ticked (serviced c (ticked (State.resetWith c)))).history =
        [.tick, .latch none, .ack, .wr (some (outputAt c 1)), .tick, .latch (some (outputAt c 1))] := by
      rw [ticked_history, serviced_history_of_zero c rfl, serviced_dhr_of_zero c rfl]
      rfl
    refine ⟨_, (runSchedule_append c _ _ hframe).trans (htick _), ?latches, ?writes⟩
    case latches => rw [hhistory]; rfl
    case writes => rw [hhistory]; rfl
  case flagSet =>
    refine ⟨_, _, runSchedule_serviceWords c rfl hset, ?_, serviced_angle_toNat_of_zero c rfl, htick _,
      serviced_dhr_of_zero c rfl⟩
    rw [serviced_history_of_zero c rfl]
    rfl

end Sys2Proof.Machine
end

section
/-! The two choices of the model for what the spec leaves without an effect: WR without an amplitude (log entry 10) and a
quadrant operation on another quadrant's degree (log entry 11). -/

namespace Sys2Proof.Machine

/-- WR copies `amp` as it stands, an absent amplitude included (R115; log entry 10). -/
theorem exec_wr_eq (s : State) : exec .wr s = .next (setPhase 5#3 (memWriteOut s.amp s)) := rfl

theorem elements_setPhase_memWriteOut (p : Phase) (v : Option Amp) (s : State) :
    (setPhase p (memWriteOut v s)).elements =
      { s.elements with phase := p, dhr := v, history := s.history ++ [.wr v] } := rfl

/-- Settles O18: the amplitude that WR copies is the absent one. -/
theorem wrWithoutAmplitudeCopiesNone : Obligations.WrWithoutAmplitudeCopiesNone := by
  unfold Obligations.WrWithoutAmplitudeCopiesNone
  intro s hamp
  refine ⟨_, exec_wr_eq s, ?_⟩
  rw [hamp, elements_setPhase_memWriteOut]

/-- A datapath operation whose answer is a refusal is refused by the same name. -/
theorem showResult_map_error (f : Amp → Readout) (e : Refusal) (s : State) {r : Except Refusal Amp}
    (h : r = .error e) : showResult (r.map f) s = .refused e := by
  subst h
  rfl

section
variable (c : Config) {d : Degree}

theorem quadrant0_of_not_inQ0 (h : ¬ inQ0 d = true) : quadrant0 c d = .error .quadrantRange := if_neg h
theorem quadrant1_of_not_inQ1 (h : ¬ inQ1 d = true) : quadrant1 c d = .error .quadrantRange := if_neg h
theorem quadrant2_of_not_inQ2 (h : ¬ inQ2 d = true) : quadrant2 c d = .error .quadrantRange := if_neg h
theorem quadrant3_of_not_inQ3 (h : ¬ inQ3 d = true) : quadrant3 c d = .error .quadrantRange := if_neg h

end

/-- Settles O26: the degree fails the operation's own range test, and the refusal is passed on. -/
theorem quadrantOperationRefusesForeignDegree : Obligations.QuadrantOperationRefusesForeignDegree := by
  unfold Obligations.QuadrantOperationRefusesForeignDegree
  refine fun d s => ⟨fun h => ?q0, fun h => ?q1, fun h => ?q2, fun h => ?q3⟩
  case q0 => exact showResult_map_error .amp _ s (quadrant0_of_not_inQ0 _ (by rw [inQ0_iff]; omega))
  case q1 => exact showResult_map_error .amp _ s (quadrant1_of_not_inQ1 _ (by rw [inQ1_iff]; omega))
  case q2 => exact showResult_map_error .amp _ s (quadrant2_of_not_inQ2 _ (by rw [inQ2_iff]; omega))
  case q3 => exact showResult_map_error .amp _ s (quadrant3_of_not_inQ3 _ (by rw [inQ3_iff]; omega))

end Sys2Proof.Machine
end
